-- ==== Sys2Proof/Word.lean ====
section
/-! DEFINITION. The word types of the CORE: every datapath value and interface register is 64 bits and unsigned
(00_scope.md R7 XLEN, R9), a record's power is 32 bits (R7 PWIDTH), the bus carries bytes (20_memory.md R65). -/

namespace Sys2Proof

/-- XLEN: a datapath value or an interface register (00_scope.md R7). -/
abbrev Word := BitVec 64

/-- PWIDTH: the power field of a factor record (00_scope.md R7). -/
abbrev Word32 := BitVec 32

/-- One byte of a bus word (20_memory.md R65). -/
abbrev Byte := BitVec 8

end Sys2Proof
end

