-- ==== Sys2Proof/Syntax.lean ====
section
/-! DEFINITION. The commands of the CORE: one constructor per row of spec/opcode_table.json (30_encoding.md R92).
A command has no operand field: its operands come from OPA, OPB, OPC and SEED (R93). -/

namespace Sys2Proof

/-- The nine commands, in opcode order (30_encoding.md R92). -/
inductive Instr where
  /-- 0x01, modular multiply (40_modular_arithmetic.md R121). -/
  | mulmod
  /-- 0x02, modular exponentiation (40_modular_arithmetic.md R123). -/
  | powmod
  /-- 0x03, primality test (41_primality.md R143). -/
  | isprime
  /-- 0x04, integer square root (42_square_root.md R161). -/
  | isqrt
  /-- 0x05, perfect-square reduction (42_square_root.md R164). -/
  | sqpow
  /-- 0x06, advance the generator (43_pollard_rho.md R181). -/
  | xshift
  /-- 0x07, greatest common divisor (43_pollard_rho.md R183). -/
  | gcd
  /-- 0x08, one Pollard's Rho attempt (43_pollard_rho.md R186). -/
  | rho
  /-- 0x09, factor into FBUF (44_factorization.md R210). -/
  | factor
  deriving DecidableEq, Repr, Inhabited

end Sys2Proof
end

