-- ==== Sys2Proof/Machine/HostNotation.lean ====
section
/-! DEFINITION. The register names of the window (20_memory.md R61) and the lines of the host notation
(30_encoding.md R96): what the host agent's program is made of. -/

namespace Sys2Proof.Machine

/-- A register name of 20_memory.md R61; entry numbers of FBUF are 0 to 15. -/
inductive Reg where
  | cmd | status | opa | opb | opc | res0 | res1 | res2 | seed
  | fbufPrime (k : Fin 16)
  | fbufPower (k : Fin 16)
  deriving DecidableEq, Repr

/-- One line of a host program (30_encoding.md R96). A host temporary is known by its number, and a label by the
index of the line it stands before (DESIGN CHOICE, log 8). -/
inductive HostOp where
  /-- `wr REG, v`: one 8-byte bus write. -/
  | wr (r : Reg) (v : Word)
  /-- `rd REG -> t`: one 8-byte bus read. -/
  | rd (r : Reg) (t : Nat)
  /-- `cmd MNEMONIC`: a write of the command's word to CMD. -/
  | cmd (i : Instr)
  /-- `bnz t[i], label`. -/
  | bnz (t bit target : Nat)
  /-- `bz t[i], label`. -/
  | bz (t bit target : Nat)
  /-- `halt`. -/
  | halt
  /-- The primitive MemRead(off, n) of 00_scope.md R11, for any offset and width. -/
  | memRead (off n t : Nat)
  /-- The primitive MemWrite(off, n, v) of 00_scope.md R11, for any offset and width. -/
  | memWrite (off n : Nat) (v : Word)
  deriving DecidableEq, Repr

end Sys2Proof.Machine
end

