-- ==== Sys2Proof/WellFormed.lean ====
section
/-! DEFINITION. Well-formedness. A command word is well formed when its reserved field is 0 and its opcode is one of
the nine (30_encoding.md R90, R95). A command itself has no operand that could be ill formed. A host program is well
formed when its branches test one of 64 bits and go to a line of it, or to the end (30_encoding.md R96, R9). -/

namespace Sys2Proof

/-- The field RSVD is 0 (30_encoding.md R90). -/
def wordReservedZero (w : Word) : Bool := w.toNat / 256 == 0

/-- OPCODE is one of 0x01 to 0x09 (30_encoding.md R92). -/
def wordOpcodeAssigned (w : Word) : Bool := 1 ≤ w.toNat % 256 && w.toNat % 256 ≤ 9

/-- The well-formed words of the format CMDW (30_encoding.md R90, R95). -/
def wellFormedWord (w : Word) : Bool := wordReservedZero w && wordOpcodeAssigned w

/-- Every command is well formed: the format has no register, immediate or mode field (30_encoding.md R90). -/
def Instr.wellFormed : Instr → Bool
  | .mulmod | .powmod | .isprime | .isqrt | .sqpow | .xshift | .gcd | .rho | .factor => true

namespace Machine

/-- A branch tests a bit of a 64-bit temporary (00_scope.md R9). -/
def HostOp.bitInRange : HostOp → Bool
  | .bnz _ bit _ | .bz _ bit _ => bit < 64
  | .wr .. | .rd .. | .cmd .. | .halt | .memRead .. | .memWrite .. => true

/-- A branch goes to a line of a program of `len` lines, or to its end. -/
def HostOp.targetInRange (len : Nat) : HostOp → Bool
  | .bnz _ _ target | .bz _ _ target => target ≤ len
  | .wr .. | .rd .. | .cmd .. | .halt | .memRead .. | .memWrite .. => true

/-- A well-formed host program. -/
def wellFormedProgram (prog : List HostOp) : Bool :=
  prog.all fun op => op.bitInRange && op.targetInRange prog.length

end Machine
end Sys2Proof
end

