-- ==== Sys2Proof/Decode.lean ====
section
/-! DEFINITION. Decoding and encoding of command words (30_encoding.md R90 to R95). Decoding is total on every word
and on every list of bytes, and rejects by name. -/

namespace Sys2Proof

/-- Why a command word is ILLEGAL (30_encoding.md R95), or why bytes hold no command word. -/
inductive DecodeReject where
  /-- RSVD ≠ 0. -/
  | reservedBits
  /-- OPCODE 0x00 or 0x0A to 0xFF. -/
  | unassignedOpcode
  /-- Fewer than the eight bytes of a word (30_encoding.md R94: no command is shorter). -/
  | tooShort
  deriving DecidableEq, Repr

/-- OPCODE, bits 7:0 (30_encoding.md R90). -/
def cmdOpcode (w : Word) : Byte := w.extractLsb' 0 8

/-- RSVD, bits 63:8 (30_encoding.md R90). -/
def cmdReserved (w : Word) : BitVec 56 := w.extractLsb' 8 56

/-- `decode(w)` of 30_encoding.md R91. -/
def decode (w : Word) : Except DecodeReject Instr :=
  if cmdReserved w ≠ 0 then .error .reservedBits
  else match (cmdOpcode w).toNat with
    | 0x01 => .ok .mulmod
    | 0x02 => .ok .powmod
    | 0x03 => .ok .isprime
    | 0x04 => .ok .isqrt
    | 0x05 => .ok .sqpow
    | 0x06 => .ok .xshift
    | 0x07 => .ok .gcd
    | 0x08 => .ok .rho
    | 0x09 => .ok .factor
    | _ => .error .unassignedOpcode

/-- What SEQ holds of a command word: the command, or `none` for ILLEGAL (30_encoding.md R91). -/
def decodeCommand (w : Word) : Option Instr := (decode w).toOption

/-- The command word of a command (30_encoding.md R92, column OPCODE). -/
def encode : Instr → Word
  | .mulmod => 0x0000000000000001#64
  | .powmod => 0x0000000000000002#64
  | .isprime => 0x0000000000000003#64
  | .isqrt => 0x0000000000000004#64
  | .sqpow => 0x0000000000000005#64
  | .xshift => 0x0000000000000006#64
  | .gcd => 0x0000000000000007#64
  | .rho => 0x0000000000000008#64
  | .factor => 0x0000000000000009#64

/-- Byte `i` of a bus word carries bits [8i+7 : 8i] (20_memory.md R65). -/
def busByte (w : Word) (i : Nat) : Byte := w.extractLsb' (8 * i) 8

/-- The eight bytes of a bus word, the lowest bus address first (20_memory.md R65). -/
def busBytes (w : Word) : List Byte :=
  [busByte w 0, busByte w 1, busByte w 2, busByte w 3, busByte w 4, busByte w 5, busByte w 6, busByte w 7]

/-- The number that bytes make, the lowest address least significant (20_memory.md R65). -/
def littleEndian : List Byte → Nat
  | [] => 0
  | b :: rest => b.toNat + 256 * littleEndian rest

/-- Decode the command word at the head of a list of bytes, and give the bytes after it. -/
def decodeBytes : List Byte → Except DecodeReject (Instr × List Byte)
  | b0 :: b1 :: b2 :: b3 :: b4 :: b5 :: b6 :: b7 :: rest =>
    match decode (BitVec.ofNat 64 (littleEndian [b0, b1, b2, b3, b4, b5, b6, b7])) with
    | .ok i => .ok (i, rest)
    | .error e => .error e
  | _ => .error .tooShort

/-- The command word that `nbits` bits of the opcode table's numbering stand for; bits above them are 0. -/
def tableWord (nbits w : Nat) : Word := BitVec.ofNat 64 (w % 2 ^ nbits)

/-- The command the decoder reads from a table row's bits, laid out as the bus carries them. No command is longer
than 64 bits (30_encoding.md R90). -/
def decodeTableWord (nbits w : Nat) : Option Instr :=
  if 64 < nbits then none
  else match decodeBytes (busBytes (tableWord nbits w)) with
    | .ok (i, _) => some i
    | .error _ => none

end Sys2Proof
end

