-- ==== Sys2Proof/Config.lean ====
section
/-! DEFINITION. The implementation parameters of 00_scope.md R7 (configuration, not state: 10_state.md R44), the
tables of 41_primality.md, and the free values. A parameter the spec marks OPEN has no body here: a claim holds
whatever it is. -/

namespace Sys2Proof.Config

/-- SEED_INIT: SEED after reset. OPEN (00_scope.md R7, 70_reset_and_hazards.md R281; log 3). -/
opaque seedInit : Word

/-- CORE_BASE: the bus address of the register window. OPEN (00_scope.md R7, 20_memory.md R60; log 3). -/
opaque coreBase : Nat

/-- RHO_RETRY_LIMIT: failed rho calls one FACTOR may make; 0 is unbounded. OPEN (00_scope.md R7; log 3). -/
opaque rhoRetryLimit : Nat

/-- The free values: draw number k is `freeWord k`, some 64-bit value under no law (10_state.md R43; log 2). -/
opaque freeWord : Nat → Word

/-- BASES (41_primality.md R140). -/
def bases : List Nat := [2, 3, 5, 7, 11, 13, 17, 19, 23, 29, 31, 37]

/-- MR_SMALL = 37·37 (00_scope.md R7). -/
def mrSmall : Nat := 1369

/-- MR_LIMITS, rows 1 to 8 of 41_primality.md R141: (n below, LIM). Rows 4 to 8 are general knowledge
(PRESUMED, log 12). -/
def mrLimits : List (Nat × Nat) :=
  [(2047, 1), (1373653, 2), (25326001, 3), (3215031751, 4), (2152302898747, 5), (3474749660383, 6),
   (341550071728321, 7), (3825123056546413051, 9)]

/-- Row 9 of 41_primality.md R141: LIM of every other n. -/
def mrLimitTop : Nat := 12

/-- TRIAL_CAP (00_scope.md R7). -/
def trialCap : Nat := 65522

/-- RHO_STEP_CAP = 2^18 (00_scope.md R7). -/
def rhoStepCap : Nat := 262144

/-- WORD32_MAX, the "fits in 32 bits" bound (00_scope.md R7). -/
def word32Max : Nat := 4294967295

/-- FBUF_ENTRIES (00_scope.md R7). -/
abbrev fbufEntries : Nat := 16

/-- The size of the register window in bytes (20_memory.md R60). -/
def windowBytes : Nat := 512

/-- DESIGN CHOICE (log 5), a parameter of the model and not of the hardware: how many rho calls one core turn
lets a FACTOR make. It fixes only how the model cuts time into turns, which no rule gives (R287). -/
def rhoCallsPerTurn : Nat := 64

end Sys2Proof.Config
end

