-- ==== Sys2Proof/Machine/State.lean ====
section
/-! DEFINITION. The state of the machine as plain data: the architectural state of 10_state.md R30, the flags that
say which registers the spec calls unspecified (R42, R43), and the model's own fields: the draw counter, the core
turns of a running command, the host agent and the schedule. -/

namespace Sys2Proof.Machine

/-- The error codes of 60_exceptions.md R251 (0x00 is no error). -/
inductive ErrCode where
  | illegalCmd | modZero | fbufOverflow | retryLimit
  deriving DecidableEq, Repr

/-- A factor record: `{prime: u64, power: u32}` (10_state.md R36). -/
structure FactorRecord where
  prime : Word
  power : Word32
  deriving DecidableEq, Repr

/-- The operand values OPA, OPB, OPC that SEQ holds of a running command (10_state.md R38). -/
structure Operands where
  a : Word
  b : Word
  c : Word
  deriving DecidableEq, Repr

/-- SEQ (10_state.md R38; 60_exceptions.md R260): idle, or busy with a decoded command (`none` is ILLEGAL) and the
operands sampled at acceptance. -/
inductive Seq where
  | idle
  | busy (cmd : Option Instr) (ops : Operands)
  deriving DecidableEq, Repr

/-- Which registers hold an unspecified value (10_state.md R42, R43; 60_exceptions.md R259). -/
structure Unspecified where
  opa : Bool
  opb : Bool
  opc : Bool
  res0 : Bool
  res1 : Bool
  res2 : Bool
  fbuf : Vector Bool 16
  deriving DecidableEq, Repr

/-- Who moves next (DESIGN CHOICE, log 4): the host makes its next access, the core takes its completion step, or
the reset input is asserted (70_reset_and_hazards.md R280, R287). -/
inductive Turn where
  | host | core | reset
  deriving DecidableEq, Repr

/-- The host agent (00_scope.md R4; 30_encoding.md R96): its program, the index of its next line, and its
temporaries as (number, value) pairs with numbers strictly rising (log 8). -/
structure HostAgent where
  prog : List HostOp
  line : Nat
  temps : List (Nat × Word)
  deriving DecidableEq, Repr

/-- The state of the machine. -/
structure State where
  /-- STATUS (10_state.md R34). -/
  status : Word
  /-- OPA (10_state.md R31). -/
  opa : Word
  /-- OPB (10_state.md R31). -/
  opb : Word
  /-- OPC (10_state.md R31). -/
  opc : Word
  /-- RES0 (10_state.md R31, R32). -/
  res0 : Word
  /-- RES1 (10_state.md R31, R32). -/
  res1 : Word
  /-- RES2 (10_state.md R31, R32). -/
  res2 : Word
  /-- SEED (10_state.md R35). -/
  seed : Word
  /-- FBUF (10_state.md R36). -/
  fbuf : Vector FactorRecord 16
  /-- SEQ (10_state.md R38). -/
  seq : Seq
  /-- The registers whose value is unspecified (10_state.md R43). -/
  unspecified : Unspecified
  /-- Model's own: draws taken so far (log 2). -/
  draws : Nat
  /-- Model's own: core turns the running FACTOR has had without completing (log 5). -/
  coreTurns : Nat
  /-- Model's own: the host agent (log 8). -/
  host : HostAgent
  /-- Model's own: the schedule, next turn first (log 4). -/
  turns : List Turn
  deriving DecidableEq, Repr

/-- Why the machine stops: a host access the bus refuses. "A model treats a host program that makes such an access as
faulting at that access" (20_memory.md R63; 60_exceptions.md R256). All are raised by `memRead` and `memWrite` alone,
before any state changes, and all are SAFE: the run stops where the hardware answers with a bus error. -/
inductive Fault where
  /-- An access that is not 8 bytes wide (20_memory.md R63). Safe. -/
  | busWidth
  /-- An access whose offset is no multiple of 8 (20_memory.md R63). Safe. -/
  | busMisaligned
  /-- An access at or above offset 0x200 (20_memory.md R63). Safe. -/
  | busOutsideWindow
  /-- An access to a reserved offset (20_memory.md R64). Safe. -/
  | busReserved
  /-- A write to a read-only register (20_memory.md R66). Safe. -/
  | busReadOnly
  deriving DecidableEq, Repr

/-- Why an instruction has no meaning. -/
inductive Refusal where
  /-- Raised by an arm of `exec` alone, for an instruction not modelled yet (none is left). Safe. -/
  | notModelled (mnemonic : String)
  deriving DecidableEq, Repr

/-- Every register the spec calls unspecified after reset (10_state.md R42). -/
def Unspecified.atReset : Unspecified :=
  { opa := true, opb := true, opc := true, res0 := true, res1 := true, res2 := true,
    fbuf := Vector.replicate 16 true }

/-- The machine right after reset (10_state.md R42; 70_reset_and_hazards.md R280): SEQ idle, STATUS 0, SEED at
SEED_INIT, every other register unspecified. The zeros stored in unspecified registers (DESIGN CHOICE, log 1) are
never read by a step. No host program and no schedule are placed (log 10). -/
def State.reset : State :=
  { status := 0, opa := 0, opb := 0, opc := 0, res0 := 0, res1 := 0, res2 := 0
    seed := Config.seedInit
    fbuf := Vector.replicate 16 { prime := 0, power := 0 }
    seq := .idle
    unspecified := Unspecified.atReset
    draws := 0, coreTurns := 0
    host := { prog := [], line := 0, temps := [] }
    turns := [] }

end Sys2Proof.Machine
end

