-- ==== Sys2Proof/Machine/Flags.lean ====
section
/-! DEFINITION. STATUS (10_state.md R34): its fields, their readers and writers, and the updates that acceptance,
completion and a dropped write make (60_exceptions.md R258, R259, R260; 20_memory.md R70). The CORE has no other
flag (10_state.md R41). -/

namespace Sys2Proof.Machine

/-- STATUS.BUSY, bit 0. -/
def statusBusy (w : Word) : Bool := w.getLsbD 0

/-- STATUS.DONE, bit 1. -/
def statusDone (w : Word) : Bool := w.getLsbD 1

/-- STATUS.ERR, bit 2. -/
def statusErr (w : Word) : Bool := w.getLsbD 2

/-- STATUS.OVERRUN, bit 3. -/
def statusOverrun (w : Word) : Bool := w.getLsbD 3

/-- STATUS.ERRCODE, bits 15:8. -/
def statusErrCode (w : Word) : Byte := w.extractLsb' 8 8

/-- The reserved bits of STATUS, 7:4 and 63:16 (10_state.md R34). -/
def statusReservedMask : Word := 0xFFFFFFFFFFFF00F0#64

/-- Write one bit of a word. -/
def setBit (w : Word) (k : Nat) (b : Bool) : Word :=
  if b then w ||| (1#64 <<< k) else w &&& ~~~(1#64 <<< k)

/-- Write STATUS.ERRCODE. -/
def setErrCode (w : Word) (code : Byte) : Word :=
  (w &&& ~~~0xFF00#64) ||| (code.setWidth 64 <<< 8)

/-- The number of an error code (60_exceptions.md R251). -/
def ErrCode.number : ErrCode → Byte
  | .illegalCmd => 0x01#8
  | .modZero => 0x02#8
  | .fbufOverflow => 0x03#8
  | .retryLimit => 0x04#8

/-- STATUS at acceptance (60_exceptions.md R260). -/
def statusAccepted (w : Word) : Word :=
  setErrCode (setBit (setBit (setBit (setBit w 0 true) 1 false) 2 false) 3 false) 0

/-- STATUS at successful completion (60_exceptions.md R258); OVERRUN is kept. -/
def statusSucceeded (w : Word) : Word :=
  setErrCode (setBit (setBit (setBit w 0 false) 1 true) 2 false) 0

/-- STATUS at error completion (60_exceptions.md R259); OVERRUN is kept. -/
def statusFailed (code : ErrCode) (w : Word) : Word :=
  setErrCode (setBit (setBit (setBit w 0 false) 1 true) 2 true) code.number

/-- STATUS when a write is dropped while BUSY (20_memory.md R70; 60_exceptions.md R257). -/
def statusOverran (w : Word) : Word := setBit w 3 true

end Sys2Proof.Machine
end

