-- ==== Sys2Proof/Machine/Operands.lean ====
section
/-! DEFINITION. The operand and result binding of 30_encoding.md R93: where a running command finds its operands, and
how a result register is written. -/

namespace Sys2Proof.Machine

/-- SEQ = BUSY (10_state.md R38). -/
def Seq.isBusy : Seq → Bool
  | .idle => false
  | .busy _ _ => true

/-- The operands of a command, as SEQ sampled them at acceptance (10_state.md R38; 30_encoding.md R93). While SEQ is
idle no command runs; the registers as stored then stand for them (DESIGN CHOICE, log 11). -/
def State.operands (s : State) : Operands :=
  match s.seq with
  | .busy _ ops => ops
  | .idle => { a := s.opa, b := s.opb, c := s.opc }

/-- SQPOW's pow operand: OPB[31:0]; OPB[63:32] is ignored (42_square_root.md R164). -/
def Operands.pow (ops : Operands) : Word32 := ops.b.extractLsb' 0 32

/-- Write RES0. -/
def State.setRes0 (s : State) (v : Word) : State :=
  { s with res0 := v, unspecified := { s.unspecified with res0 := false } }

/-- Write RES1. -/
def State.setRes1 (s : State) (v : Word) : State :=
  { s with res1 := v, unspecified := { s.unspecified with res1 := false } }

/-- Write RES2. -/
def State.setRes2 (s : State) (v : Word) : State :=
  { s with res2 := v, unspecified := { s.unspecified with res2 := false } }

/-- Write SEED. -/
def State.setSeed (s : State) (v : Word) : State := { s with seed := v }

/-- Write the records of a factor sequence from entry 0 on and the sentinel {0, 0} right after them; the entries past
it keep what they held (44_factorization.md R218; 10_state.md R37). -/
def State.setFbuf (s : State) (records : List FactorRecord) : State :=
  { s with
    fbuf := Vector.ofFn fun k : Fin 16 =>
      if k.val < records.length then records.getD k.val { prime := 0, power := 0 }
      else if k.val = records.length then { prime := 0, power := 0 }
      else s.fbuf[k.val]
    unspecified := { s.unspecified with
      fbuf := Vector.ofFn fun k : Fin 16 =>
        if k.val ≤ records.length then false else s.unspecified.fbuf[k.val] } }

/-- Every FBUF word becomes unspecified: a FACTOR ended in error (60_exceptions.md R259). -/
def State.forgetFbuf (s : State) : State :=
  { s with unspecified := { s.unspecified with fbuf := Vector.replicate 16 true } }

end Sys2Proof.Machine
end

