-- ==== Sys2Proof/Machine/Ops.lean ====
section
/-! DEFINITION. The shared operations: draws, the register window (20_memory.md), the life cycle of a command
(60_exceptions.md R258 to R260) and reset (70_reset_and_hazards.md R280). -/

namespace Sys2Proof.Machine

/-! ### Draws -/

/-- Take the next free value (10_state.md R43; log 2). -/
def State.draw (s : State) : Word × State := (Config.freeWord s.draws, { s with draws := s.draws + 1 })

/-! ### The registers behind the window -/

/-- A value under its flag: `none` where it is unspecified (10_state.md R43). -/
def unlessUnspecified : Bool → Word → Option Word
  | true, _ => none
  | false, v => some v

/-- What a register holds: `none` where its value is unspecified (10_state.md R43). CMD reads 0 (10_state.md R33);
POWER is zero-extended (10_state.md R36). This is the one place a register is read. -/
def State.held (s : State) : Reg → Option Word
  | .cmd => some 0
  | .status => some s.status
  | .opa => unlessUnspecified s.unspecified.opa s.opa
  | .opb => unlessUnspecified s.unspecified.opb s.opb
  | .opc => unlessUnspecified s.unspecified.opc s.opc
  | .res0 => unlessUnspecified s.unspecified.res0 s.res0
  | .res1 => unlessUnspecified s.unspecified.res1 s.res1
  | .res2 => unlessUnspecified s.unspecified.res2 s.res2
  | .seed => some s.seed
  | .fbufPrime k => unlessUnspecified s.unspecified.fbuf[k.val] s.fbuf[k.val].prime
  | .fbufPower k => unlessUnspecified s.unspecified.fbuf[k.val] (s.fbuf[k.val].power.setWidth 64)

/-- The registers whose reads are draws while BUSY (20_memory.md R69). -/
def Reg.isVolatile : Reg → Bool
  | .res0 | .res1 | .res2 | .seed | .fbufPrime _ | .fbufPower _ => true
  | .cmd | .status | .opa | .opb | .opc => false

/-- A draw as it appears in a register: bits 63:32 of a POWER word read 0 (10_state.md R42, R43). -/
def Reg.shape : Reg → Word → Word
  | .fbufPower _, v => (v.extractLsb' 0 32).setWidth 64
  | .cmd, v | .status, v | .opa, v | .opb, v | .opc, v | .res0, v | .res1, v | .res2, v | .seed, v
  | .fbufPrime _, v => v

/-- Read a register by a draw. -/
def State.drawReg (s : State) (r : Reg) : Word × State := (r.shape s.draw.1, s.draw.2)

/-- A host read of a register (20_memory.md R68, R69; 10_state.md R43): its value, or a draw where it is unspecified
or the core is BUSY and the register is one the running command may write. -/
def State.readReg (s : State) (r : Reg) : Word × State :=
  if s.seq.isBusy && r.isVolatile then s.drawReg r
  else match s.held r with
    | some v => (v, s)
    | none => s.drawReg r

/-- The registers the host may not write (20_memory.md R66). -/
def Reg.isReadOnly : Reg → Bool
  | .status | .res0 | .res1 | .res2 | .fbufPrime _ | .fbufPower _ => true
  | .cmd | .opa | .opb | .opc | .seed => false

/-! ### The life cycle of a command -/

/-- The operand values at acceptance, OPA then OPB then OPC. An unspecified operand is a draw, and the register stays
unspecified (10_state.md R38, R43; log 15). -/
def State.sampleOperands (s : State) : Operands × State :=
  let a := s.readReg .opa
  let b := a.2.readReg .opb
  let c := b.2.readReg .opc
  ({ a := a.1, b := b.1, c := c.1 }, c.2)

/-- SEQ and STATUS at the acceptance of a command (60_exceptions.md R260). -/
def State.start (s : State) (cmd : Option Instr) (ops : Operands) : State :=
  { s with status := statusAccepted s.status, seq := .busy cmd ops, coreTurns := 0 }

/-- Acceptance of the command word `w` (60_exceptions.md R260; 10_state.md R33). -/
def State.accept (s : State) (w : Word) : State :=
  s.sampleOperands.2.start (decodeCommand w) s.sampleOperands.1

/-- Successful completion, after the results are written (60_exceptions.md R258). -/
def State.complete (s : State) : State :=
  { s with status := statusSucceeded s.status, seq := .idle, coreTurns := 0 }

/-- Error completion: the CORE's whole "trap entry" (60_exceptions.md R259). No state is saved and control goes
nowhere; nothing returns from it (R262). -/
def State.completeError (s : State) (code : ErrCode) : State :=
  { s with status := statusFailed code s.status, seq := .idle, coreTurns := 0 }

/-- Completion of a command whose only result is RES0. -/
def State.finishRes0 (s : State) : Except ErrCode Word → State
  | .ok v => (s.setRes0 v).complete
  | .error code => s.completeError code

/-- Assertion of the reset input (70_reset_and_hazards.md R280): every piece of the CORE's state takes its reset value
and a running command is abandoned. The host, the schedule and the draw counter are not the CORE's (log 17). -/
def State.assertReset (s : State) : State :=
  { State.reset with host := s.host, turns := s.turns, draws := s.draws }

/-! ### Host accesses -/

/-- Where each register stands in the window (20_memory.md R61). -/
def Reg.offset : Reg → Nat
  | .cmd => 0x000
  | .status => 0x008
  | .opa => 0x010
  | .opb => 0x018
  | .opc => 0x020
  | .res0 => 0x028
  | .res1 => 0x030
  | .res2 => 0x038
  | .seed => 0x040
  | .fbufPrime k => 0x080 + 16 * k.val
  | .fbufPower k => 0x088 + 16 * k.val

/-- The bus address of a register: CORE_BASE plus its offset (20_memory.md R60, R61; log 9). -/
def Reg.busAddress (r : Reg) : Nat := Config.coreBase + r.offset

/-- The register at an aligned offset of the window; `none` where the offset is reserved (20_memory.md R61, R64). -/
def regAt (off : Nat) : Option Reg :=
  if off = 0x000 then some .cmd
  else if off = 0x008 then some .status
  else if off = 0x010 then some .opa
  else if off = 0x018 then some .opb
  else if off = 0x020 then some .opc
  else if off = 0x028 then some .res0
  else if off = 0x030 then some .res1
  else if off = 0x038 then some .res2
  else if off = 0x040 then some .seed
  else if 0x080 ≤ off ∧ off < 0x180 then
    let k : Fin 16 := Fin.ofNat 16 ((off - 0x080) / 16)
    if off % 16 = 0 then some (.fbufPrime k) else if off % 16 = 8 then some (.fbufPower k) else none
  else none

/-- The checks every access passes before it reaches a register (20_memory.md R63, R64). -/
def checkAccess (off n : Nat) : Except Fault Reg :=
  if n ≠ 8 then .error .busWidth
  else if off % 8 ≠ 0 then .error .busMisaligned
  else if Config.windowBytes ≤ off then .error .busOutsideWindow
  else match regAt off with
    | some r => .ok r
    | none => .error .busReserved

/-- MemRead(off, n) (20_memory.md R63). -/
def State.memRead (s : State) (off n : Nat) : Except Fault (Word × State) :=
  match checkAccess off n with
  | .ok r => .ok (s.readReg r)
  | .error f => .error f

/-- The effect of a permitted write while SEQ is idle (20_memory.md R65): CMD starts a command, the others store.
The read-only registers are refused before this (`memWrite`). -/
def State.writeReg (s : State) : Reg → Word → State
  | .cmd, w => s.accept w
  | .opa, v => { s with opa := v, unspecified := { s.unspecified with opa := false } }
  | .opb, v => { s with opb := v, unspecified := { s.unspecified with opb := false } }
  | .opc, v => { s with opc := v, unspecified := { s.unspecified with opc := false } }
  | .seed, v => s.setSeed v
  | .status, _ | .res0, _ | .res1, _ | .res2, _ | .fbufPrime _, _ | .fbufPower _, _ => s

/-- MemWrite(off, n, v) (20_memory.md R63, R65, R66). While BUSY the write is dropped and sets OVERRUN (R70). -/
def State.memWrite (s : State) (off n : Nat) (v : Word) : Except Fault State :=
  match checkAccess off n with
  | .error f => .error f
  | .ok r =>
    if r.isReadOnly then .error .busReadOnly
    else if s.seq.isBusy then .ok { s with status := statusOverran s.status }
    else .ok (s.writeReg r v)

end Sys2Proof.Machine
end

