-- ==== Sys2Proof/Machine/Modular.lean ====
section
/-! DEFINITION. The modular multiplier and exponentiator (40_modular_arithmetic.md R120 to R125) and the commands
MULMOD and POWMOD. Values are natural numbers below 2^64 throughout (00_scope.md R10; log 18). -/

namespace Sys2Proof.Machine

/-- The loop of MULMOD_F (40_modular_arithmetic.md R120), one pass per bit of `a`; the first argument after `m` is
the passes left. Each addition is preceded by its conditional subtraction (R125). -/
def mulmodLoop (m : Nat) : Nat → Nat → Nat → Nat → Nat
  | 0, _, res, _ => res
  | passes + 1, a, res, d =>
    if a = 0 then res
    else
      let res' := if a % 2 = 1 then (if d ≥ m - res then d - (m - res) else res + d) else res
      let d' := if d ≥ m - d then d - (m - d) else d + d
      mulmodLoop m passes (a / 2) res' d'

/-- MULMOD_F(a, b, m) for m ≥ 1 (40_modular_arithmetic.md R120). -/
def mulmodF (a b m : Nat) : Nat := mulmodLoop m 64 a 0 (b % m)

/-- The loop of POWMOD_F (40_modular_arithmetic.md R122), one pass per bit of `e`. -/
def powmodLoop (m : Nat) : Nat → Nat → Nat → Nat → Nat
  | 0, _, res, _ => res
  | passes + 1, e, res, sq =>
    if e = 0 then res
    else powmodLoop m passes (e / 2) (if e % 2 = 1 then mulmodF res sq m else res) (mulmodF sq sq m)

/-- POWMOD_F(n, e, m) for m ≥ 1 (40_modular_arithmetic.md R122). -/
def powmodF (n e m : Nat) : Nat := powmodLoop m 64 e 1 (n % m)

/-- The modulus check, made before any arithmetic (60_exceptions.md R253). -/
def checkModulus (m : Word) (v : Word) : Except ErrCode Word :=
  if m = 0 then .error .modZero else .ok v

/-- MULMOD (40_modular_arithmetic.md R121): RES0 <- MULMOD_F(OPA, OPB, OPC); MOD_ZERO when OPC = 0. -/
def execMulmod (s : State) : Host.Outcome State Fault Refusal :=
  let o := s.operands
  .next (s.finishRes0 (checkModulus o.c (BitVec.ofNat 64 (mulmodF o.a.toNat o.b.toNat o.c.toNat))))

/-- POWMOD (40_modular_arithmetic.md R123): RES0 <- POWMOD_F(OPA, OPB, OPC); MOD_ZERO when OPC = 0, whatever OPB
is. -/
def execPowmod (s : State) : Host.Outcome State Fault Refusal :=
  let o := s.operands
  .next (s.finishRes0 (checkModulus o.c (BitVec.ofNat 64 (powmodF o.a.toNat o.b.toNat o.c.toNat))))

end Sys2Proof.Machine
end

