-- ==== Sys2Proof/Machine/Primality.lean ====
section
/-! DEFINITION. The Miller-Rabin tester (41_primality.md R140 to R145) and the command ISPRIME. -/

namespace Sys2Proof.Machine

/-- The first row of the threshold table whose bound exceeds `n` (41_primality.md R141); every comparison strict. -/
def witnessCountIn (n : Nat) : List (Nat × Nat) → Nat
  | [] => Config.mrLimitTop
  | (bound, lim) :: rest => if n < bound then lim else witnessCountIn n rest

/-- LIM(n) (41_primality.md R141). -/
def witnessCount (n : Nat) : Nat := witnessCountIn n Config.mrLimits

/-- Shift out zero low bits and count them: the loop of 41_primality.md R142 step 3 and of 44_factorization.md R211
step 2. The first argument is the passes left. -/
def stripTwos : Nat → Nat → Nat → Nat × Nat
  | 0, b, a => (b, a)
  | passes + 1, b, a => if b % 2 = 0 then stripTwos passes (b / 2) (a + 1) else (b, a)

/-- Square `c` modulo `n`, looking for n − 1 before each squaring (41_primality.md R142, R145); the first argument
after `n` is the squarings left. -/
def squareSeeking (n : Nat) : Nat → Nat → Nat
  | 0, c => c
  | left + 1, c => if c = n - 1 then c else squareSeeking n left (mulmodF c c n)

/-- Whether the witness `w` passes for n − 1 = 2^a · b (41_primality.md R142 step 3). -/
def witnessPasses (n b a w : Nat) : Bool :=
  let c := powmodF w b n
  c == 1 || squareSeeking n (a - 1) c == n - 1

/-- Step 3: deterministic Miller-Rabin with the first LIM(n) bases (41_primality.md R142). -/
def millerRabin (n : Nat) : Bool :=
  let (b, a) := stripTwos 64 (n - 1) 0
  (Config.bases.take (witnessCount n)).all fun w => witnessPasses n b a w

/-- ISPRIME_F(n) (41_primality.md R142): trial division by the bases, then small values, then Miller-Rabin. -/
def isprimeF (n : Nat) : Bool :=
  match Config.bases.find? fun w => n % w == 0 with
  | some w => n == w
  | none => if n < Config.mrSmall then 1 < n else millerRabin n

/-- ISPRIME (41_primality.md R143): RES0 <- zext_64(ISPRIME_F(OPA)). -/
def execIsprime (s : State) : Host.Outcome State Fault Refusal :=
  .next (s.finishRes0 (.ok (if isprimeF s.operands.a.toNat then 1 else 0)))

end Sys2Proof.Machine
end

