-- ==== Sys2Proof/Machine/Rho.lean ====
section
/-! DEFINITION. The Pollard's Rho engine (43_pollard_rho.md R180 to R187): the xorshift generator, Euclid's
algorithm, the rho search, and the commands XSHIFT, GCD and RHO. -/

namespace Sys2Proof.Machine

/-- XORSHIFT_F(r) (43_pollard_rho.md R180). -/
def xorshiftF (r : Word) : Word :=
  let t := r ^^^ (r <<< 13)
  let t := t ^^^ (t >>> 7)
  t ^^^ (t <<< 17)

/-- The loop of GCD_F (43_pollard_rho.md R182). The first argument bounds the passes: `b` falls at every pass, so `b`
itself is bound enough (log 18). -/
def gcdLoop : Nat → Nat → Nat → Nat
  | 0, a, _ => a
  | passes + 1, a, b => if b = 0 then a else gcdLoop passes b (a % b)

/-- GCD_F(a, b) (43_pollard_rho.md R182). -/
def gcdF (a b : Nat) : Nat := gcdLoop b a b

/-- RHO_MAP(y, n) = (y² + 1) mod n (43_pollard_rho.md R185; 90_conflicts.md C3). -/
def rhoMap (y n : Nat) : Nat := (mulmodF y y n + 1) % n

/-- The loop of RHO_F (43_pollard_rho.md R185). The first argument after `n` is the map steps left of the budget of
2^18: at 0 the failure sentinel n is returned. `y` moving point, `x` checkpoint, `i` steps taken, `j` the step count
at which the checkpoint next moves. -/
def rhoLoop (n : Nat) : Nat → Nat → Nat → Nat → Nat → Nat
  | 0, _, _, _, _ => n
  | left + 1, y, x, i, j =>
    let x' := if i = j then y else x
    let j' := if i = j then 2 * j else j
    let y' := rhoMap y n
    let d := gcdF (if y' ≥ x' then y' - x' else x' - y') n
    if d ≠ 1 then d else rhoLoop n left y' x' (i + 1) j'

/-- RHO_F(n) for n ≥ 1 (43_pollard_rho.md R185): the divisor candidate and the SEED after one generator step. -/
def rhoF (n : Nat) (seed : Word) : Nat × Word :=
  let seed' := xorshiftF seed
  let y := seed'.toNat % n
  (rhoLoop n Config.rhoStepCap y y 0 1, seed')

/-- XSHIFT (43_pollard_rho.md R181): SEED <- XORSHIFT_F(SEED); RES0 <- SEED. -/
def execXshift (s : State) : Host.Outcome State Fault Refusal :=
  .next ((s.setSeed (xorshiftF s.seed)).finishRes0 (.ok (xorshiftF s.seed)))

/-- GCD (43_pollard_rho.md R183): RES0 <- GCD_F(OPA, OPB). -/
def execGcd (s : State) : Host.Outcome State Fault Refusal :=
  .next (s.finishRes0 (.ok (BitVec.ofNat 64 (gcdF s.operands.a.toNat s.operands.b.toNat))))

/-- RHO (43_pollard_rho.md R186): RES0 <- RHO_F(OPA), which also writes SEED. MOD_ZERO when OPA = 0, before SEED
moves. -/
def execRho (s : State) : Host.Outcome State Fault Refusal :=
  let n := s.operands.a
  .next (if n = 0 then s.completeError .modZero
    else (s.setSeed (rhoF n.toNat s.seed).2).finishRes0 (.ok (BitVec.ofNat 64 (rhoF n.toNat s.seed).1)))

end Sys2Proof.Machine
end

