-- ==== Sys2Proof/Machine/SquareRoot.lean ====
section
/-! DEFINITION. The integer square root and the perfect-square reducer (42_square_root.md R160 to R164) and the
commands ISQRT and SQPOW. -/

namespace Sys2Proof.Machine

/-- The Newton loop of ISQRT_F (42_square_root.md R160; 90_conflicts.md C4). The first argument after `n` bounds the
passes: `x` falls at every pass, so `x` itself is bound enough (log 18). -/
def isqrtLoop (n : Nat) : Nat → Nat → Nat
  | 0, x => x
  | passes + 1, x =>
    let y := (x + n / x) / 2
    if y ≥ x then x else isqrtLoop n passes y

/-- ISQRT_F(n) (42_square_root.md R160). -/
def isqrtF (n : Nat) : Nat :=
  if n ≤ 3 then (if n = 0 then 0 else 1) else isqrtLoop n (n / 2) (n / 2)

/-- What SQPOW_F returns (42_square_root.md R163). -/
structure Reduced where
  n : Nat
  pow : Nat
  bound : Nat
  deriving DecidableEq, Repr

/-- The loop of SQPOW_F (42_square_root.md R163), which ends when n ≤ 1 or n is no square. It runs at most five times
(R163), so six passes are enough. -/
def sqpowLoop : Nat → Nat → Nat → Nat × Nat
  | 0, n, pow => (n, pow)
  | passes + 1, n, pow =>
    if 1 < n ∧ isqrtF n * isqrtF n = n then sqpowLoop passes (isqrtF n) (pow * 2 % 2 ^ 32) else (n, pow)

/-- The trial bound of a reduced n (42_square_root.md R163). -/
def trialBound (n : Nat) : Nat :=
  if n > Config.trialCap * Config.trialCap then Config.trialCap else isqrtF n + 1

/-- SQPOW_F(n, pow) (42_square_root.md R163). -/
def sqpowF (n pow : Nat) : Reduced :=
  let (n', pow') := sqpowLoop 6 n pow
  { n := n', pow := pow', bound := trialBound n' }

/-- ISQRT (42_square_root.md R161): RES0 <- ISQRT_F(OPA). -/
def execIsqrt (s : State) : Host.Outcome State Fault Refusal :=
  .next (s.finishRes0 (.ok (BitVec.ofNat 64 (isqrtF s.operands.a.toNat))))

/-- SQPOW (42_square_root.md R164): RES0 <- n', RES1 <- zext_64(pow'), RES2 <- bound. -/
def execSqpow (s : State) : Host.Outcome State Fault Refusal :=
  let r := sqpowF s.operands.a.toNat s.operands.pow.toNat
  .next (((s.setRes0 (BitVec.ofNat 64 r.n)).setRes1 (BitVec.ofNat 64 r.pow)).setRes2 (BitVec.ofNat 64 r.bound)).complete

end Sys2Proof.Machine
end

