-- ==== Sys2Proof/Machine/Factor.lean ====
section
/-! DEFINITION. The factorization driver (44_factorization.md R210 to R224) and the command FACTOR. A FACTOR may never
complete (R223, R271), so the driver runs on a budget of rho calls; when the budget is spent the command stays BUSY and
its next core turn has a larger one (DESIGN CHOICE, log 5). -/

namespace Sys2Proof.Machine

/-- The local variables of FACTOR_F (44_factorization.md R211): the residual `n`, the exponent multiplier `pow`, the
records so far (their number is k), SEED, the failed rho calls, and the model's budget of rho calls. -/
structure Driver where
  n : Nat
  pow : Nat
  records : List FactorRecord
  seed : Word
  fails : Nat
  budget : Nat
  deriving DecidableEq, Repr

/-- Why the driver stopped before its end: an error, with SEED as the last rho call left it (44_factorization.md
R210), or the budget of rho calls is spent. -/
inductive DriverStop where
  | error (code : ErrCode) (seed : Word)
  | spent
  deriving DecidableEq, Repr

/-- EMIT(q, e) (44_factorization.md R218; 60_exceptions.md R254). -/
def emit (q e : Nat) (d : Driver) : Except DriverStop Driver :=
  if d.records.length ≥ 15 then .error (.error .fbufOverflow d.seed)
  else .ok { d with records := d.records ++ [{ prime := BitVec.ofNat 64 q, power := BitVec.ofNat 32 e }] }

/-- Divide `p` out of `n` and count: the inner loop of 44_factorization.md R213. The first argument after `p` is the
passes left. -/
def divideOut (p : Nat) : Nat → Nat → Nat → Nat × Nat
  | 0, n, e => (n, e)
  | passes + 1, n, e => if n % p = 0 then divideOut p passes (n / p) (e + 1) else (n, e)

/-- Step 3, the trial-division loop over odd `p` below `bound` (44_factorization.md R213). The first argument is the
passes left; a bound never exceeds TRIAL_CAP, so TRIAL_CAP passes are enough (log 18). -/
def trialLoop : Nat → Nat → Nat → Driver → Except DriverStop Driver
  | 0, _, _, d => .ok d
  | passes + 1, p, bound, d =>
    if p < bound then
      if d.n % p = 0 then
        match emit p ((divideOut p 64 d.n 0).2 * d.pow) d with
        | .error e => .error e
        | .ok d' =>
          let r := sqpowF (divideOut p 64 d.n 0).1 d.pow
          trialLoop passes (p + 2) r.bound { d' with n := r.n, pow := r.pow }
      else trialLoop passes (p + 2) bound d
    else .ok d

/-- Step 3 (44_factorization.md R213): only when the residual exceeds 8. -/
def trialStage (d : Driver) : Except DriverStop Driver :=
  if d.n > 8 then
    let r := sqpowF d.n d.pow
    trialLoop Config.trialCap 3 r.bound { d with n := r.n, pow := r.pow }
  else .ok d

/-- RHO_RETRY(m) (44_factorization.md R216): call RHO_F until it gives a proper divisor. `limit` is RHO_RETRY_LIMIT;
the second number is the budget of calls left. -/
def rhoRetry (limit m : Nat) : Nat → Driver → Except DriverStop (Nat × Driver)
  | 0, _ => .error .spent
  | budget + 1, d =>
    let (x, seed) := rhoF m d.seed
    if x ≠ 1 ∧ x ≠ m then .ok (x, { d with seed := seed, budget := budget })
    else if limit ≠ 0 ∧ d.fails + 1 ≥ limit then .error (.error .retryLimit seed)
    else rhoRetry limit m budget { d with seed := seed, budget := budget, fails := d.fails + 1 }

/-- CLASSIFY_WIDE(x) (44_factorization.md R215). -/
def classifyWide (limit x : Nat) (d : Driver) : Except DriverStop Driver :=
  if isqrtF x * isqrtF x = x then emit (isqrtF x) (2 * d.pow) d
  else if isprimeF x then emit x d.pow d
  else
    match rhoRetry limit x d.budget d with
    | .error e => .error e
    | .ok (y, d') =>
      match emit y d'.pow d' with
      | .error e => .error e
      | .ok d'' => emit (x / y) d''.pow d''

/-- CLASSIFY_NARROW(x) (44_factorization.md R216). -/
def classifyNarrow (x : Nat) (d : Driver) : Except DriverStop Driver :=
  if d.n % x = 0 then
    match emit x (d.pow + 1) d with
    | .error e => .error e
    | .ok d' => .ok { d' with n := d'.n / x }
  else emit x d.pow d

/-- Step 4, the rho stage (44_factorization.md R214). Each pass makes at least one rho call, so one pass more than the
budget is never reached; the first number after `limit` is the passes left. -/
def rhoStage (limit : Nat) : Nat → Driver → Except DriverStop Driver
  | 0, _ => .error .spent
  | passes + 1, d =>
    if d.n > Config.word32Max ∧ isprimeF d.n = false then
      match rhoRetry limit d.n d.budget d with
      | .error e => .error e
      | .ok (x, d') =>
        let d'' := { d' with n := d'.n / x }
        match (if x > Config.word32Max then classifyWide limit x d'' else classifyNarrow x d'') with
        | .error e => .error e
        | .ok d3 => rhoStage limit passes d3
    else .ok d

/-- Step 5, the final residual (44_factorization.md R217). -/
def finalResidual (d : Driver) : Except DriverStop Driver :=
  if d.n ≠ 1 then emit d.n d.pow d else .ok d

/-- Step 2, strip the factors of 2 (44_factorization.md R211). -/
def stripStage (d : Driver) : Except DriverStop Driver :=
  let (n, c) := stripTwos 64 d.n 0
  if c > 0 then emit 2 c { d with n := n } else .ok { d with n := n }

/-- FACTOR_F(n), its six steps in order (44_factorization.md R211 to R218), with RHO_RETRY_LIMIT and the budget of rho
calls as arguments: the driver at the end holds the records and SEED. -/
def factorF (limit budget n : Nat) (seed : Word) : Except DriverStop Driver :=
  let d : Driver := { n := n, pow := 1, records := [], seed := seed, fails := 0, budget := budget }
  if n = 0 ∨ n = 1 then .ok d
  else if n = 2 ∨ n = 3 then emit n 1 d
  else
    match stripStage d with
    | .error e => .error e
    | .ok d =>
      match trialStage d with
      | .error e => .error e
      | .ok d =>
        match rhoStage limit (d.budget + 1) d with
        | .error e => .error e
        | .ok d => finalResidual d

/-- The state after a core turn of FACTOR, from what the driver answered (44_factorization.md R210, R218;
60_exceptions.md R258, R259). -/
def State.finishFactor (s : State) : Except DriverStop Driver → State
  | .ok d => (((s.setFbuf d.records).setSeed d.seed).setRes0 (BitVec.ofNat 64 d.records.length)).complete
  | .error (.error code seed) => ((s.forgetFbuf).setSeed seed).completeError code
  | .error .spent => { s with coreTurns := s.coreTurns + 1 }

/-- The rho calls a core turn may make (log 5): more at every turn, so that a FACTOR that can complete does. -/
def State.rhoBudget (s : State) : Nat := Config.rhoCallsPerTurn * (s.coreTurns + 1)

/-- FACTOR (44_factorization.md R210): RES0 <- zext_64(FACTOR_F(OPA)), which writes FBUF and SEED. -/
def execFactor (s : State) : Host.Outcome State Fault Refusal :=
  .next (s.finishFactor (factorF Config.rhoRetryLimit s.rhoBudget s.operands.a.toNat s.seed))

end Sys2Proof.Machine
end

