-- ==== Sys2Proof/Machine/Dispatch.lean ====
section
/-! DEFINITION. The meaning of every command: the completion step of a command that runs (60_exceptions.md R258,
R259), one arm per constructor of Instr. -/

namespace Sys2Proof.Machine

def exec (i : Instr) (s : State) : Host.Outcome State Fault Refusal :=
  match i with
  | .mulmod => Sys2Proof.Machine.execMulmod s
  | .powmod => Sys2Proof.Machine.execPowmod s
  | .isprime => Sys2Proof.Machine.execIsprime s
  | .isqrt => Sys2Proof.Machine.execIsqrt s
  | .sqpow => Sys2Proof.Machine.execSqpow s
  | .xshift => Sys2Proof.Machine.execXshift s
  | .gcd => Sys2Proof.Machine.execGcd s
  | .rho => Sys2Proof.Machine.execRho s
  | .factor => Sys2Proof.Machine.execFactor s

end Sys2Proof.Machine
end

