-- ==== Sys2Proof/Machine/HostAgent.lean ====
section
/-! DEFINITION. The host agent: its temporaries, the pseudo-lines of 30_encoding.md R97, and one host step, which
performs one line of the host program (30_encoding.md R96) and so at most one bus access (20_memory.md R71). -/

namespace Sys2Proof.Machine

/-! ### Temporaries -/

/-- Write a host temporary, keeping the numbers strictly rising. -/
def setTemp (t : Nat) (v : Word) : List (Nat × Word) → List (Nat × Word)
  | [] => [(t, v)]
  | (u, w) :: rest =>
    if t < u then (t, v) :: (u, w) :: rest
    else if t = u then (t, v) :: rest
    else (u, w) :: setTemp t v rest

/-- The value of a host temporary, if a read has set it. -/
def getTemp (t : Nat) : List (Nat × Word) → Option Word
  | [] => none
  | (u, w) :: rest => if t = u then some w else getTemp t rest

/-- The value a branch tests; a temporary that no read has set is a free value (log 8). -/
def State.readTemp (s : State) (t : Nat) : Word × State :=
  match getTemp t s.host.temps with
  | some v => (v, s)
  | none => s.draw

/-! ### Moving along the program -/

/-- Go to a line of the host program. -/
def State.goTo (s : State) (line : Nat) : State := { s with host := { s.host with line := line } }

/-- Go to the next line. -/
def State.nextLine (s : State) : State := s.goTo (s.host.line + 1)

/-- Set a temporary and go to the next line. -/
def State.setTempNext (s : State) (t : Nat) (v : Word) : State :=
  { s with host := { s.host with temps := setTemp t v s.host.temps, line := s.host.line + 1 } }

/-! ### One line -/

/-- A line that writes: the access, then the next line; a refused access faults the host program (20_memory.md
R63). -/
def State.hostWrite (s : State) (off n : Nat) (v : Word) : Host.Outcome State Fault Refusal :=
  match s.memWrite off n v with
  | .ok s' => .next s'.nextLine
  | .error f => .fault f

/-- A line that reads into a temporary. -/
def State.hostRead (s : State) (off n t : Nat) : Host.Outcome State Fault Refusal :=
  match s.memRead off n with
  | .ok (v, s') => .next (s'.setTempNext t v)
  | .error f => .fault f

/-- A line that branches when bit `bit` of temporary `t` is `want`. -/
def State.hostBranch (s : State) (t bit target : Nat) (want : Bool) : State :=
  let (v, s') := s.readTemp t
  if v.getLsbD bit = want then s'.goTo target else s'.nextLine

/-- One line of the host notation (30_encoding.md R96). -/
def State.hostLine (s : State) : HostOp → Host.Outcome State Fault Refusal
  | .wr r v => s.hostWrite r.offset 8 v
  | .rd r t => s.hostRead r.offset 8 t
  | .cmd i => s.hostWrite Reg.cmd.offset 8 (encode i)
  | .bnz t bit target => .next (s.hostBranch t bit target true)
  | .bz t bit target => .next (s.hostBranch t bit target false)
  | .halt => .next s
  | .memRead off n t => s.hostRead off n t
  | .memWrite off n v => s.hostWrite off n v

/-- A host step: its next line; past the end of its program, and at `halt`, it stays (log 8). -/
def hostStep (s : State) : Host.Outcome State Fault Refusal :=
  match s.host.prog[s.host.line]? with
  | some op => s.hostLine op
  | none => .next s

/-! ### Pseudo-lines (30_encoding.md R97), written from line `pos` of a program, polling into temporary `t` -/

/-- `wait`: poll STATUS until BUSY = 0. -/
def waitLines (pos t : Nat) : List HostOp := [.rd .status t, .bnz t 0 pos]

/-- `run MNEMONIC`. -/
def runLines (pos : Nat) (i : Instr) (t : Nat) : List HostOp := .cmd i :: waitLines (pos + 1) t

/-- `call MNEMONIC a[, b[, c]]`: operands written first, those that are given. -/
def callLines (pos : Nat) (i : Instr) (a : Word) (b c : Option Word) (t : Nat) : List HostOp :=
  let writes := .wr .opa a :: ((b.map (HostOp.wr .opb)).toList ++ (c.map (HostOp.wr .opc)).toList)
  writes ++ runLines (pos + writes.length) i t

end Sys2Proof.Machine
end

