-- ==== Sys2Proof/Machine/Schedule.lean ====
section
/-! DEFINITION. Which agent moves next (70_reset_and_hazards.md R287; DESIGN CHOICE, log 4), and how an instruction is
placed to run next. -/

namespace Sys2Proof.Machine

/-- The turn when the schedule lists none: the core completes what runs, else the host goes on. -/
def State.defaultTurn (s : State) : Turn := if s.seq.isBusy then .core else .host

/-- The next turn, taken off the schedule. -/
def State.nextTurn (s : State) : Turn × State :=
  match s.turns with
  | t :: rest => (t, { s with turns := rest })
  | [] => (s.defaultTurn, s)

/-- The state in which the command word `w` has just been accepted on the operand registers AS STORED and the core has
the next turn (log 10). -/
def State.place (s : State) (w : Word) : State :=
  { s.start (decodeCommand w) { a := s.opa, b := s.opb, c := s.opc } with turns := .core :: s.turns }

end Sys2Proof.Machine
end

