-- ==== Sys2Proof/Machine/Step.lean ====
section
/-! DEFINITION. One step of the machine: an ILLEGAL word completes at once (60_exceptions.md R252); else the agent
whose turn it is moves (00_scope.md R4; 70_reset_and_hazards.md R287). -/

namespace Sys2Proof.Machine

/-- The core's turn: the completion step of the running command; while idle it has nothing to do (60_exceptions.md
R258, R259, R270). -/
def coreStep (s : State) : Host.Outcome State Fault Refusal :=
  match s.seq with
  | .idle => .next s
  | .busy none _ => .next (s.completeError .illegalCmd)
  | .busy (some i) _ => exec i s

/-- The turn `t`, already taken off the schedule. -/
def takeTurn (t : Turn) (s : State) : Host.Outcome State Fault Refusal :=
  match t with
  | .host => hostStep s
  | .core => coreStep s
  | .reset => .next s.assertReset

/-- One step. -/
def step (s : State) : Host.Outcome State Fault Refusal :=
  match s.seq with
  | .busy none _ => .next (s.completeError .illegalCmd)
  | _ => takeTurn s.nextTurn.1 s.nextTurn.2

/-- The state in which the next step runs the command whose bits the opcode table numbers `w` (log 10). -/
def State.withFetchWord (s : State) (nbits w : Nat) : State := s.place (tableWord nbits w)

end Sys2Proof.Machine
end

