-- ==== Sys2Proof/Safety.lean ====
section
/-! DEFINITION. The terms in which claims are made: how a command ends (60_exceptions.md R258, R259), what stays
unchanged, the legal states of STATUS and SEQ (10_state.md R34), and what a safe run is. -/

namespace Sys2Proof.Machine

/-! ### Frames -/

/-- Every register and FBUF word but those listed holds what it held before; a word that was unspecified still is. -/
def SameRegsExcept (changed : List Reg) (s t : State) : Prop := ∀ r, r ∉ changed → t.held r = s.held r

/-- The same, but FBUF may change (FACTOR). -/
def SameRegsExceptFbufAnd (changed : List Reg) (s t : State) : Prop :=
  ∀ r, r ∉ changed → (∀ k, r ≠ .fbufPrime k ∧ r ≠ .fbufPower k) → t.held r = s.held r

/-- The host agent, the schedule and the draws taken are unchanged: none of them is the CORE's. -/
structure SameOutside (s t : State) : Prop where
  host : t.host = s.host
  turns : t.turns = s.turns
  draws : t.draws = s.draws

/-! ### How a command ends -/

/-- Successful completion (60_exceptions.md R258): BUSY 0, DONE 1, ERR 0, ERRCODE 0, SEQ idle; OVERRUN and the reserved
bits keep their values. -/
structure Succeeded (s t : State) : Prop where
  seq : t.seq = .idle
  busy : statusBusy t.status = false
  done : statusDone t.status = true
  err : statusErr t.status = false
  errCode : statusErrCode t.status = 0
  overrun : statusOverrun t.status = statusOverrun s.status
  reserved : t.status &&& statusReservedMask = s.status &&& statusReservedMask

/-- Error completion (60_exceptions.md R259): as above, with ERR 1 and the code. -/
structure Failed (code : ErrCode) (s t : State) : Prop where
  seq : t.seq = .idle
  busy : statusBusy t.status = false
  done : statusDone t.status = true
  err : statusErr t.status = true
  errCode : statusErrCode t.status = code.number
  overrun : statusOverrun t.status = statusOverrun s.status
  reserved : t.status &&& statusReservedMask = s.status &&& statusReservedMask

/-- The command `i` runs on the operands `ops` (10_state.md R38). -/
def Running (i : Instr) (ops : Operands) (s : State) : Prop := s.seq = .busy (some i) ops

/-! ### The factor sequence in FBUF -/

/-- The product of PRIME^POWER over FBUF[0..r−1] (44_factorization.md R220). -/
def State.recordProduct (s : State) (r : Nat) : Nat :=
  ((List.finRange 16).map fun k => if k.val < r then s.fbuf[k.val].prime.toNat ^ s.fbuf[k.val].power.toNat else 1).prod

/-- The entry is specified and holds this record. -/
def State.entryIs (s : State) (k : Fin 16) (e : FactorRecord) : Prop :=
  s.unspecified.fbuf[k.val] = false ∧ s.fbuf[k.val] = e

/-- The sentinel record {0, 0} (00_scope.md R14). -/
def FactorRecord.sentinel : FactorRecord := { prime := 0, power := 0 }

/-- A specified entry is the sentinel, or a record with PRIME > 1 and POWER ≥ 1 (10_state.md R37). -/
def FbufLegal (s : State) : Prop :=
  ∀ k : Fin 16, s.unspecified.fbuf[k.val] = false →
    s.fbuf[k.val] = FactorRecord.sentinel ∨ (1 < s.fbuf[k.val].prime.toNat ∧ 1 ≤ s.fbuf[k.val].power.toNat)

/-! ### The invariant of the machine -/

/-- The numbers of the host temporaries are strictly rising (log 8). -/
def tempsRising (temps : List (Nat × Word)) : Bool := decide ((temps.map Prod.fst).Pairwise (· < ·))

/-- What every step keeps: the legal combinations of STATUS (10_state.md R34), SEQ's agreement with STATUS.BUSY and
with the operand registers (R38; 20_memory.md R70), and the canonical form of the model's own fields. -/
structure MachineInv (s : State) : Prop where
  /-- BUSY is 1 while SEQ is BUSY. -/
  busy : statusBusy s.status = s.seq.isBusy
  /-- The reserved bits read as 0. -/
  reserved : s.status &&& statusReservedMask = 0
  /-- While running: DONE = 0, ERR = 0, ERRCODE = 0 (OVERRUN may be 1). -/
  running : s.seq.isBusy = true →
    statusDone s.status = false ∧ statusErr s.status = false ∧ statusErrCode s.status = 0
  /-- While idle: nothing ever ran, or the last command has completed. -/
  resting : s.seq.isBusy = false → s.status = 0 ∨ statusDone s.status = true
  /-- ERRCODE is 0 when ERR = 0. -/
  noError : statusErr s.status = false → statusErrCode s.status = 0
  /-- ERRCODE is one of the four codes when ERR = 1 (60_exceptions.md R251). -/
  someError : statusErr s.status = true → ∃ code : ErrCode, statusErrCode s.status = code.number
  /-- SEQ holds the operand registers, which no write changes while BUSY. -/
  sampled : ∀ cmd ops, s.seq = .busy cmd ops →
    (s.unspecified.opa = false → ops.a = s.opa) ∧ (s.unspecified.opb = false → ops.b = s.opb) ∧
      (s.unspecified.opc = false → ops.c = s.opc)
  /-- Only a FACTOR waits over core turns. -/
  waits : s.coreTurns ≠ 0 → ∃ ops, s.seq = .busy (some .factor) ops
  /-- The temporaries are in their canonical form. -/
  temps : tempsRising s.host.temps = true

/-! ### What the host's next line does -/

/-- The offset and width a line of the host program writes to, if it writes. -/
def HostOp.writeTarget : HostOp → Option (Nat × Nat)
  | .wr r _ => some (r.offset, 8)
  | .cmd _ => some (Reg.cmd.offset, 8)
  | .memWrite off n _ => some (off, n)
  | .rd .. | .bnz .. | .bz .. | .halt | .memRead .. => none

/-- The offset and width a line of the host program reads, if it reads. -/
def HostOp.readTarget : HostOp → Option (Nat × Nat)
  | .rd r _ => some (r.offset, 8)
  | .memRead off n _ => some (off, n)
  | .wr .. | .cmd _ | .bnz .. | .bz .. | .halt | .memWrite .. => none

/-- The host moves next, and its next line writes the register `r`. -/
def State.hostWritesNext (s : State) (r : Reg) : Prop :=
  s.nextTurn.1 = .host ∧ ∃ op, s.host.prog[s.host.line]? = some op ∧ op.writeTarget = some (r.offset, 8)

/-- The reset input is asserted next. -/
def State.resetNext (s : State) : Prop := s.nextTurn.1 = .reset

/-- The core moves next and completes, or goes on with, the command `i`. -/
def State.runsNext (s : State) (i : Instr) : Prop := s.nextTurn.1 = .core ∧ ∃ ops, Running i ops s

/-! ### Safe runs -/

/-- A run of `k` steps is safe when it ends in no bus error of the host program (60_exceptions.md R256). -/
def SafeFor (k : Nat) (s : State) : Prop := ∃ t, Sys2Proof.core.run k s = .next t

end Sys2Proof.Machine
end

