-- ==== Sys2Proof/Certificates/Slice0/Obligations.lean ====
section
/-! DEFINITION. The statements for the provers. Each formalises rules of spec/ or follows from its sections. Free
values (Config.freeWord, Config.seedInit, Config.rhoRetryLimit) have no body, so each statement holds whatever they
are. -/

open Sys2Proof Sys2Proof.Machine

/-! ### Encoding -/

/-- The table's words decode to their commands and four illegal words of 95_test_vectors.md V10 are rejected. -/
def Obligations.OpcodeTableWordsDecode : Prop :=
  decode 0x0000000000000001 = .ok .mulmod ∧ decode 0x0000000000000005 = .ok .sqpow ∧
  decode 0x0000000000000008 = .ok .rho ∧ decode 0x0000000000000009 = .ok .factor ∧
  decode 0x0000000000000000 = .error .unassignedOpcode ∧ decode 0x000000000000000A = .error .unassignedOpcode ∧
  decode 0x00000000000000FF = .error .unassignedOpcode ∧ decode 0x0000000000000101 = .error .reservedBits

/-- 30_encoding.md R91, R95: the nine words decode to the nine commands, and every other 64-bit word is ILLEGAL. -/
def Obligations.EveryWordIsOneCommandOrIllegal : Prop :=
  ∀ w : Word,
    (decode w = .ok .mulmod ↔ w.toNat = 0x01) ∧ (decode w = .ok .powmod ↔ w.toNat = 0x02) ∧
    (decode w = .ok .isprime ↔ w.toNat = 0x03) ∧ (decode w = .ok .isqrt ↔ w.toNat = 0x04) ∧
    (decode w = .ok .sqpow ↔ w.toNat = 0x05) ∧ (decode w = .ok .xshift ↔ w.toNat = 0x06) ∧
    (decode w = .ok .gcd ↔ w.toNat = 0x07) ∧ (decode w = .ok .rho ↔ w.toNat = 0x08) ∧
    (decode w = .ok .factor ↔ w.toNat = 0x09) ∧
    (decodeCommand w = none ↔ w.toNat / 256 ≠ 0 ∨ w.toNat % 256 = 0 ∨ 0x0A ≤ w.toNat % 256)

/-- Encoding and decoding agree both ways, also through the eight bytes of the bus word (20_memory.md R65), and with
the opcode table's numbering of bits. -/
def Obligations.EncodeAndDecodeAgree : Prop :=
  (∀ i, decode (encode i) = .ok i ∧ wellFormedWord (encode i) = true) ∧
  (∀ w i, decode w = .ok i → encode i = w) ∧
  (∀ w, wellFormedWord w = true ↔ ∃ i, decode w = .ok i) ∧
  (∀ w i rest, decodeBytes (busBytes w ++ rest) = .ok (i, rest) ↔ decode w = .ok i) ∧
  (∀ w : Word, decodeTableWord 64 w.toNat = decodeCommand w)

/-! ### One step -/

/-- A step on the core's turn is `exec` of the command that runs: the turn is taken off the schedule, and with an empty
schedule the core moves while BUSY (the model's schedule, log 4). -/
def Obligations.CoreTurnRunsTheCommand : Prop :=
  ∀ s i ops, Running i ops s →
    (∀ rest, s.turns = .core :: rest → step s = exec i { s with turns := rest }) ∧
    (s.turns = [] → step s = exec i s)

/-- A command word that decodes to `i`, placed to run next, is run by the very next step on the stored operands
(the model's placing of an instruction, log 10). -/
def Obligations.PlacedWordRunsNext : Prop :=
  ∀ s : State, ∀ w i, decodeTableWord 64 w = some i →
    ∃ t, step (s.withFetchWord 64 w) = exec i t ∧ Running i { a := s.opa, b := s.opb, c := s.opc } t ∧
      SameRegsExcept [.status] s t ∧ SameOutside s t

/-- No command faults and none is refused: every command that runs has a next state (60_exceptions.md, opening
words: every error is reported by completing the command). -/
def Obligations.CommandsNeverStop : Prop := ∀ i s, ∃ t, exec i s = .next t

/-- The machine stops only at a host access that the bus refuses (20_memory.md R63; 60_exceptions.md R256). -/
def Obligations.OnlyRefusedAccessesFault : Prop :=
  ∀ s, (∀ r, step s ≠ .refused r) ∧
    ∀ f, step s = .fault f →
      s.nextTurn.1 = .host ∧ ∃ op off n, s.host.prog[s.host.line]? = some op ∧
        ((op.readTarget = some (off, n) ∧ s.memRead off n = .error f) ∨
          (op.writeTarget = some (off, n) ∧ ∀ v, s.memWrite off n v = .error f))

/-- 60_exceptions.md R270: the CORE holds its state until the next access or reset. Every step that is no write line, no
completion and no reset (an idle core turn, a read, a branch, `halt`, a host whose program has ended) leaves SEQ and
every register and FBUF word as they were. That an idle core has turns, and who moves when the schedule is empty, is
log 4; that the host stays past its last line and at `halt` is log 8: there the step changes nothing but the
schedule. -/
def Obligations.IdleCoreHoldsItsState : Prop :=
  (∀ s t, step s = .next t → (∀ ops, s.seq ≠ .busy none ops) → s.nextTurn.1 ≠ .reset →
    (s.nextTurn.1 = .core → s.seq = .idle) →
    (s.nextTurn.1 = .host → ∀ op, s.host.prog[s.host.line]? = some op → op.writeTarget = none) →
    t.seq = s.seq ∧ t.coreTurns = s.coreTurns ∧ SameRegsExcept [] s t) ∧
  ∀ s, (∀ ops, s.seq ≠ .busy none ops) →
    (s.seq = .idle → ∀ rest, s.turns = .core :: rest → step s = .next { s with turns := rest }) ∧
    (s.host.prog.length ≤ s.host.line ∨ s.host.prog[s.host.line]? = some .halt →
      (∀ rest, s.turns = .host :: rest → step s = .next { s with turns := rest }) ∧
      (s.seq = .idle → s.turns = [] → step s = .next s))

/-! ### The register window -/

/-- 20_memory.md R61: each register stands at its offset and nowhere else. -/
def Obligations.WindowMapIsExact : Prop :=
  (∀ off r, off < 0x200 → off % 8 = 0 → (regAt off = some r ↔ off = r.offset)) ∧
  (∀ r : Reg, r.offset < 0x200 ∧ r.offset % 8 = 0) ∧
  Reg.cmd.offset = 0x000 ∧ Reg.status.offset = 0x008 ∧ Reg.opa.offset = 0x010 ∧ Reg.opb.offset = 0x018 ∧
  Reg.opc.offset = 0x020 ∧ Reg.res0.offset = 0x028 ∧ Reg.res1.offset = 0x030 ∧ Reg.res2.offset = 0x038 ∧
  Reg.seed.offset = 0x040 ∧
  ∀ k : Fin 16, (Reg.fbufPrime k).offset = 0x080 + 16 * k.val ∧ (Reg.fbufPower k).offset = 0x088 + 16 * k.val

/-- 20_memory.md R63, R64, R66: exactly these accesses are bus errors. -/
def Obligations.BusErrorsAreExactlyThese : Prop :=
  ∀ (s : State) (off n : Nat) (v : Word),
    let bad := n ≠ 8 ∨ off % 8 ≠ 0 ∨ 0x200 ≤ off ∨ (0x048 ≤ off ∧ off ≤ 0x07F) ∨ (0x180 ≤ off ∧ off ≤ 0x1FF)
    ((∃ f, s.memRead off n = .error f) ↔ bad) ∧
    ((∃ f, s.memWrite off n v = .error f) ↔
      bad ∨ off = 0x008 ∨ off = 0x028 ∨ off = 0x030 ∨ off = 0x038 ∨ (0x080 ≤ off ∧ off < 0x180))

/-- 20_memory.md R64, R66: an access to a reserved offset is refused, a write to a read-only register is refused, and a
read of CMD returns 0 with no effect. -/
def Obligations.ReservedAndReadOnlyAccessesRefused : Prop :=
  ∀ (s : State) (v : Word),
    (∀ off, off % 8 = 0 → (0x048 ≤ off ∧ off ≤ 0x07F) ∨ (0x180 ≤ off ∧ off ≤ 0x1FF) →
      s.memRead off 8 = .error .busReserved ∧ s.memWrite off 8 v = .error .busReserved) ∧
    (∀ r : Reg, r = .status ∨ r = .res0 ∨ r = .res1 ∨ r = .res2 ∨ (∃ k, r = .fbufPrime k ∨ r = .fbufPower k) →
      s.memWrite r.offset 8 v = .error .busReadOnly) ∧
    s.memRead Reg.cmd.offset 8 = .ok (0, s)

/-- 10_state.md R43: a read of a register whose value is unspecified returns a draw, while idle and (also of OPA, OPB
and OPC) while BUSY; bits 63:32 of a POWER word are 0; the next read takes another draw (log 2). Nothing else
changes. -/
def Obligations.UnspecifiedReadIsADraw : Prop :=
  ∀ (s : State) (r : Reg), s.held r = none →
    ∃ v, s.memRead r.offset 8 = .ok (v, { s with draws := s.draws + 1 }) ∧
      ((∀ k, r ≠ .fbufPower k) → v = Config.freeWord s.draws) ∧
      (∀ k, r = .fbufPower k → v.toNat = (Config.freeWord s.draws).toNat % 2 ^ 32)

/-- 20_memory.md R69: what a read returns while BUSY; once BUSY is 0, every register reads as the command left it. -/
def Obligations.ReadsWhileBusyAndAfter : Prop :=
  (∀ (s : State) (r : Reg) (v : Word), s.seq = .idle → s.held r = some v → s.memRead r.offset 8 = .ok (v, s)) ∧
  ∀ s : State, s.seq.isBusy = true →
    s.memRead Reg.status.offset 8 = .ok (s.status, s) ∧
    s.memRead Reg.cmd.offset 8 = .ok (0, s) ∧
    (∀ (r : Reg) (v : Word), r = .opa ∨ r = .opb ∨ r = .opc → s.held r = some v → s.memRead r.offset 8 = .ok (v, s)) ∧
    (∀ r : Reg, r = .res0 ∨ r = .res1 ∨ r = .res2 ∨ r = .seed ∨ (∃ k, r = .fbufPrime k) →
      s.memRead r.offset 8 = .ok (Config.freeWord s.draws, { s with draws := s.draws + 1 })) ∧
    (∀ k : Fin 16, ∃ v, s.memRead (Reg.fbufPower k).offset 8 = .ok (v, { s with draws := s.draws + 1 }) ∧
      v.toNat = (Config.freeWord s.draws).toNat % 2 ^ 32)

/-- 20_memory.md R68: a read has no side effect on the CORE. -/
def Obligations.ReadsLeaveTheCoreUnchanged : Prop :=
  ∀ (s t : State) (off n : Nat) (v : Word), s.memRead off n = .ok (v, t) →
    t.seq = s.seq ∧ t.coreTurns = s.coreTurns ∧ t.host = s.host ∧ t.turns = s.turns ∧ SameRegsExcept [] s t

/-- 20_memory.md R65: while idle, a write to OPA, OPB, OPC or SEED stores the value and changes nothing else. -/
def Obligations.IdleWriteStores : Prop :=
  ∀ (s : State) (r : Reg) (v : Word), s.seq = .idle → r = .opa ∨ r = .opb ∨ r = .opc ∨ r = .seed →
    ∃ t, s.memWrite r.offset 8 v = .ok t ∧ t.held r = some v ∧ SameRegsExcept [r] s t ∧ SameOutside s t ∧
      t.seq = .idle ∧ t.coreTurns = s.coreTurns

/-- 20_memory.md R70: while BUSY, a write to CMD, OPA, OPB, OPC or SEED is dropped and sets OVERRUN; a write to a
read-only or reserved offset is still a bus error. -/
def Obligations.BusyWriteIsDropped : Prop :=
  ∀ (s : State) (r : Reg) (v : Word), s.seq.isBusy = true →
    r = .cmd ∨ r = .opa ∨ r = .opb ∨ r = .opc ∨ r = .seed →
    (∃ t, s.memWrite r.offset 8 v = .ok t ∧ statusOverrun t.status = true ∧
      (∀ k, k ≠ 3 → t.status.getLsbD k = s.status.getLsbD k) ∧
      SameRegsExcept [.status] s t ∧ SameOutside s t ∧ t.seq = s.seq ∧ t.coreTurns = s.coreTurns) ∧
    (∀ q : Reg, q ∉ [.cmd, .opa, .opb, .opc, .seed] → s.memWrite q.offset 8 v = .error .busReadOnly) ∧
    ∀ off, off % 8 = 0 → (0x048 ≤ off ∧ off ≤ 0x07F) ∨ (0x180 ≤ off ∧ off ≤ 0x1FF) →
      s.memWrite off 8 v = .error .busReserved

/-! ### The life cycle of a command -/

/-- 60_exceptions.md R260: a write of `w` to CMD while idle sets BUSY, clears DONE, ERR, ERRCODE and OVERRUN, and takes
the decoded command and the operand registers into SEQ. An unspecified operand is a draw (10_state.md R43); that the
three are sampled in the order OPA, OPB, OPC, for every word, each taking the next draw, and that the register stays
unspecified, is the model's reading (DEDUCED, log 15). -/
def Obligations.CommandWriteIsAccepted : Prop :=
  ∀ (s : State) (w : Word), s.seq = .idle →
    let drawn : Reg → Nat := fun r => if s.held r = none then 1 else 0
    ∃ t ops, s.memWrite 0x000 8 w = .ok t ∧ t.seq = .busy (decodeCommand w) ops ∧
      ops.a = (s.held .opa).getD (Config.freeWord s.draws) ∧
      ops.b = (s.held .opb).getD (Config.freeWord (s.draws + drawn .opa)) ∧
      ops.c = (s.held .opc).getD (Config.freeWord (s.draws + drawn .opa + drawn .opb)) ∧
      t.draws = s.draws + drawn .opa + drawn .opb + drawn .opc ∧
      statusBusy t.status = true ∧ statusDone t.status = false ∧ statusErr t.status = false ∧
      statusErrCode t.status = 0 ∧ statusOverrun t.status = false ∧
      SameRegsExcept [.status] s t ∧ t.host = s.host ∧ t.turns = s.turns

/-- 60_exceptions.md R252: an illegal word is accepted and completes at once with ILLEGAL_CMD; no result and no other
register is written. That "at once" is the very next step, whatever the schedule says, is the model's reading (DEDUCED,
log 6). -/
def Obligations.IllegalWordCompletesAtOnce : Prop :=
  ∀ (s : State) (w : Word), s.seq = .idle → (w.toNat / 256 ≠ 0 ∨ w.toNat % 256 = 0 ∨ 0x0A ≤ w.toNat % 256) →
    ∃ t u, s.memWrite 0x000 8 w = .ok t ∧ (∃ ops, t.seq = .busy none ops) ∧ step t = .next u ∧ Failed .illegalCmd t u ∧
      statusOverrun u.status = false ∧ SameRegsExcept [.status] s u ∧ u.host = s.host ∧ u.turns = s.turns

/-- The STATUS words of 95_test_vectors.md section 2 at the completion a step makes (60_exceptions.md R258, R259): 0x2
after a success; 0x106, 0x206, 0x406 after ILLEGAL_CMD, a modulus of zero, RETRY_LIMIT (256 · code + 6); and 8 more when
a write was dropped while the command ran. That an ILLEGAL word's completion is the next step whatever the schedule
says, a host or reset turn included, is the model's reading of R252's "at once" (DEDUCED, log 6). For FACTOR the word is
read from the driver's answer; no answer within the budget leaves STATUS (log 5). RHO_RETRY_LIMIT has no value here, so
no run is known to end with RETRY_LIMIT: what that answer makes of STATUS is a clause of its own. -/
def Obligations.StatusWordsAtCompletion : Prop :=
  ∀ s t, MachineInv s → step s = .next t →
    let dropped := if statusOverrun s.status then 8 else 0
    (∀ ops, s.seq = .busy none ops → t.status.toNat = 0x106 + dropped) ∧
    (s.nextTurn.1 = .core → ∀ i ops, Running i ops s →
      let zeroModulus := (i = .mulmod ∧ ops.c = 0) ∨ (i = .powmod ∧ ops.c = 0) ∨ (i = .rho ∧ ops.a = 0)
      (zeroModulus → t.status.toNat = 0x206 + dropped) ∧
      (¬ zeroModulus → i ≠ .factor → t.status.toNat = 0x2 + dropped) ∧
      (i = .factor →
        (t.status.toNat = match factorF Config.rhoRetryLimit s.rhoBudget ops.a.toNat s.seed with
          | .ok _ => 0x2 + dropped
          | .error (.error code _) => 256 * code.number.toNat + 6 + dropped
          | .error .spent => s.status.toNat) ∧
        (∀ seed, (s.finishFactor (.error (.error .retryLimit seed))).status.toNat = 0x406 + dropped) ∧
        (t.seq = .idle → t.status.toNat = 0x2 + dropped ∨ t.status.toNat = 0x406 + dropped)))

/-- 60_exceptions.md R253: a modulus of 0 ends MULMOD, POWMOD (also with exponent 0) and RHO with MOD_ZERO, before any
result is written or SEED moves; no other command ends with MOD_ZERO. -/
def Obligations.ZeroModulusRaisesModZero : Prop :=
  (∀ s i ops, Running i ops s →
    (i = .mulmod ∧ ops.c = 0) ∨ (i = .powmod ∧ ops.c = 0) ∨ (i = .rho ∧ ops.a = 0) →
    ∃ t, exec i s = .next t ∧ Failed .modZero s t ∧ SameRegsExcept [.status] s t ∧ SameOutside s t) ∧
  ∀ s t i ops, Running i ops s → exec i s = .next t → Failed .modZero s t →
    (i = .mulmod ∧ ops.c = 0) ∨ (i = .powmod ∧ ops.c = 0) ∨ (i = .rho ∧ ops.a = 0)

/-- 60_exceptions.md R271: every command but FACTOR always completes, on its first core turn. -/
def Obligations.EveryCommandButFactorCompletes : Prop :=
  ∀ s i ops, Running i ops s → i ≠ .factor → ∃ t, exec i s = .next t ∧ t.seq = .idle

/-! ### Results of the commands -/

/-- 40_modular_arithmetic.md R121: RES0 is the remainder of the full product (R124); with modulus 0 the command ends
with MOD_ZERO and RES0 is unchanged. -/
def Obligations.MulmodIsExact : Prop :=
  encode .mulmod = 0x01 ∧ ∀ s ops, Running .mulmod ops s →
    (ops.c ≠ 0 → ∃ t v, exec .mulmod s = .next t ∧ Succeeded s t ∧ t.held .res0 = some v ∧
      v.toNat = ops.a.toNat * ops.b.toNat % ops.c.toNat ∧
      SameRegsExcept [.res0, .status] s t ∧ SameOutside s t) ∧
    (ops.c = 0 → ∃ t, exec .mulmod s = .next t ∧ Failed .modZero s t ∧ SameRegsExcept [.status] s t ∧
      SameOutside s t)

/-- 40_modular_arithmetic.md R123: exponent 0 gives 1, even for modulus 1; else RES0 is the power reduced (R122); with
modulus 0 the command ends with MOD_ZERO, whatever the exponent is. -/
def Obligations.PowmodIsExact : Prop :=
  encode .powmod = 0x02 ∧ ∀ s ops, Running .powmod ops s →
    (ops.c ≠ 0 → ∃ t v, exec .powmod s = .next t ∧ Succeeded s t ∧ t.held .res0 = some v ∧
      (ops.b = 0 → v = 1) ∧ (ops.b ≠ 0 → v.toNat = ops.a.toNat ^ ops.b.toNat % ops.c.toNat) ∧
      SameRegsExcept [.res0, .status] s t ∧ SameOutside s t) ∧
    (ops.c = 0 → ∃ t, exec .powmod s = .next t ∧ Failed .modZero s t ∧ SameRegsExcept [.status] s t ∧
      SameOutside s t)

/-- 41_primality.md R143: ISPRIME completes on every operand with RES0 = 1 or 0, and writes nothing else. -/
def Obligations.IsprimeAnswersOneOrZero : Prop :=
  ∀ s ops, Running .isprime ops s →
    ∃ t v, exec .isprime s = .next t ∧ Succeeded s t ∧ t.held .res0 = some v ∧
      v = (if isprimeF ops.a.toNat then 1 else 0) ∧ SameRegsExcept [.res0, .status] s t ∧ SameOutside s t

/-- One half of 41_primality.md R144: no prime is rejected. (The other half is the published pseudoprime bound, which
the spec marks as general knowledge.) -/
def Obligations.IsprimeAcceptsEveryPrime : Prop :=
  ∀ n : Nat, n < 2 ^ 64 → Nat.Prime n → isprimeF n = true

/-- 41_primality.md R142, steps 1 and 2: exact for every n that a base divides and for every n below 1369. -/
def Obligations.IsprimeExactByTrialDivision : Prop :=
  ∀ n : Nat, (n < 1369 ∨ ∃ w ∈ Config.bases, w ∣ n) → (isprimeF n = true ↔ Nat.Prime n)

/-- 41_primality.md R141, R142, R145: the three steps of the tester. A number that a base divides is prime iff it is
that base; below 1369 every other number above 1 is; from there on n passes iff each of the first LIM(n) bases w
passes: w^b = 1, or w^(2^r·b) = n − 1 modulo n for some r < a, where n − 1 = 2^a·b with b odd. (Rows 4 to 8 of the
table are the spec's general knowledge, log 12.) -/
def Obligations.IsprimeFollowsItsSteps : Prop :=
  ∀ n : Nat, n < 2 ^ 64 →
    let bases := [2, 3, 5, 7, 11, 13, 17, 19, 23, 29, 31, 37]
    let lim := if n < 2047 then 1 else if n < 1373653 then 2 else if n < 25326001 then 3
      else if n < 3215031751 then 4 else if n < 2152302898747 then 5 else if n < 3474749660383 then 6
      else if n < 341550071728321 then 7 else if n < 3825123056546413051 then 9 else 12
    ((∃ w ∈ bases, w ∣ n) → (isprimeF n = true ↔ n ∈ bases)) ∧
    ((∀ w ∈ bases, ¬ w ∣ n) → n < 1369 → (isprimeF n = true ↔ 1 < n)) ∧
    ((∀ w ∈ bases, ¬ w ∣ n) → 1369 ≤ n → ∀ a b, n - 1 = 2 ^ a * b → b % 2 = 1 →
      (isprimeF n = true ↔
        ∀ w ∈ bases.take lim, w ^ b % n = 1 ∨ ∃ r, r < a ∧ w ^ (2 ^ r * b) % n = n - 1))

/-- 42_square_root.md R161, R162: RES0² ≤ n < (RES0 + 1)². -/
def Obligations.IsqrtIsTheFloorRoot : Prop :=
  encode .isqrt = 0x04 ∧ ∀ s ops, Running .isqrt ops s →
    ∃ t v, exec .isqrt s = .next t ∧ Succeeded s t ∧ t.held .res0 = some v ∧
      v.toNat * v.toNat ≤ ops.a.toNat ∧ ops.a.toNat < (v.toNat + 1) * (v.toNat + 1) ∧ v.toNat ≤ 4294967295 ∧
      SameRegsExcept [.res0, .status] s t ∧ SameOutside s t

/-- 42_square_root.md R163, R164: n is the reduced n to the power 2^j, pow is multiplied by 2^j modulo 2^32, the
reduced n is no square (or at most 1), and RES2 is the trial bound. The loop does not start for n ≤ 1, so j is 0
there: n = 0 gives (0, pow, 1) and n = 1 gives (1, pow, 2). -/
def Obligations.SqpowStripsSquares : Prop :=
  encode .sqpow = 0x05 ∧ ∀ s ops, Running .sqpow ops s →
    ∃ t n' p' bound j, exec .sqpow s = .next t ∧ Succeeded s t ∧
      t.held .res0 = some n' ∧ t.held .res1 = some p' ∧ t.held .res2 = some bound ∧
      j ≤ 5 ∧ (ops.a.toNat ≤ 1 → j = 0) ∧
      ops.a.toNat = n'.toNat ^ (2 ^ j) ∧ (n'.toNat ≤ 1 ∨ ¬ IsSquare n'.toNat) ∧
      p'.toNat = (ops.b.toNat % 2 ^ 32) * 2 ^ j % 2 ^ 32 ∧
      bound.toNat = (if n'.toNat > 4293132484 then 65522 else Nat.sqrt n'.toNat + 1) ∧
      SameRegsExcept [.res0, .res1, .res2, .status] s t ∧ SameOutside s t

/-- 43_pollard_rho.md R180, R181: SEED and RES0 take the next word of the xorshift generator. -/
def Obligations.XshiftAdvancesSeed : Prop :=
  encode .xshift = 0x06 ∧ ∀ s ops, Running .xshift ops s →
    let t1 := s.seed ^^^ (s.seed <<< 13)
    let t2 := t1 ^^^ (t1 >>> 7)
    let r := t2 ^^^ (t2 <<< 17)
    ∃ t, exec .xshift s = .next t ∧ Succeeded s t ∧ t.held .seed = some r ∧ t.held .res0 = some r ∧
      SameRegsExcept [.seed, .res0, .status] s t ∧ SameOutside s t

/-- The xorshift step is injective, so only a zero SEED is followed by zero (70_reset_and_hazards.md R286; the
bijection is marked general knowledge in 43_pollard_rho.md R180). -/
def Obligations.XorshiftIsInjective : Prop :=
  (∀ a b, xorshiftF a = xorshiftF b → a = b) ∧ ∀ r, xorshiftF r = 0 ↔ r = 0

/-- 43_pollard_rho.md R182, R183: RES0 is the greatest common divisor; gcd(0, 0) = 0. -/
def Obligations.GcdIsEuclids : Prop :=
  encode .gcd = 0x07 ∧ ∀ s ops, Running .gcd ops s →
    ∃ t v, exec .gcd s = .next t ∧ Succeeded s t ∧ t.held .res0 = some v ∧
      v.toNat = Nat.gcd ops.a.toNat ops.b.toNat ∧ SameRegsExcept [.res0, .status] s t ∧ SameOutside s t

/-- 43_pollard_rho.md R184, R186: for n ≥ 1, RHO completes with a divisor d of n, proper or n itself, and SEED
advances. That SEED advances by one step of XORSHIFT_F is the reference datapath of R185 (DESIGN CHOICE, log 13). -/
def Obligations.RhoReturnsADivisor : Prop :=
  ∀ s ops, Running .rho ops s → ops.a ≠ 0 →
    ∃ t d, exec .rho s = .next t ∧ Succeeded s t ∧ t.held .res0 = some d ∧ d.toNat ∣ ops.a.toNat ∧
      ((1 < d.toNat ∧ d.toNat < ops.a.toNat) ∨ d = ops.a) ∧ t.held .seed = some (xorshiftF s.seed) ∧
      SameRegsExcept [.res0, .seed, .status] s t ∧ SameOutside s t

/-! ### FACTOR -/

/-- 44_factorization.md R210, R214: an operand of at most 32 bits never reaches the rho stage, so FACTOR completes on
its first core turn, SEED unchanged, with at most 15 records, the sentinel after them and the product law. -/
def Obligations.NarrowFactorCompletes : Prop :=
  ∀ s ops, Running .factor ops s → ops.a.toNat ≤ 4294967295 →
    ∃ (t : State) (r : Fin 16), exec .factor s = .next t ∧ Succeeded s t ∧
      t.held .res0 = some (BitVec.ofNat 64 r.val) ∧ t.entryIs r FactorRecord.sentinel ∧
      (∀ k : Fin 16, k < r → t.unspecified.fbuf[k.val] = false ∧ Nat.Prime t.fbuf[k.val].prime.toNat ∧
        1 ≤ t.fbuf[k.val].power.toNat) ∧
      (∀ k : Fin 16, r < k → t.held (.fbufPrime k) = s.held (.fbufPrime k) ∧
        t.held (.fbufPower k) = s.held (.fbufPower k)) ∧
      (ops.a ≠ 0 → t.recordProduct r.val = ops.a.toNat) ∧ (ops.a = 0 → r = 0) ∧
      SameRegsExceptFbufAnd [.res0, .status] s t ∧ SameOutside s t

/-- 44_factorization.md R219: for an operand of at most 32 bits, which never reaches the rho stage (R214), the recorded
primes are strictly ascending. -/
def Obligations.NarrowFactorRecordsAscend : Prop :=
  ∀ limit budget n seed d, n ≤ 4294967295 → factorF limit budget n seed = .ok d →
    (d.records.map fun e => e.prime.toNat).Pairwise (· < ·)

/-- 44_factorization.md R210, R218; 10_state.md R37: when the driver ends with records, FACTOR completes with RES0
their number, FBUF[0..r−1] the records in order, FBUF[r] the sentinel, the later entries as before, and SEED advanced
by one XORSHIFT_F step for each rho call made (the calls are those the driver took off its budget, log 5; one step a
call is the reference datapath, log 13). -/
def Obligations.FactorWritesRecordsAndSentinel : Prop :=
  ∀ s ops d, Running .factor ops s →
    factorF Config.rhoRetryLimit s.rhoBudget ops.a.toNat s.seed = .ok d →
    ∃ (t : State) (r : Fin 16), exec .factor s = .next t ∧ Succeeded s t ∧ d.records.length = r.val ∧
      t.held .res0 = some (BitVec.ofNat 64 r.val) ∧ t.held .seed = some d.seed ∧
      d.budget ≤ s.rhoBudget ∧ d.seed = xorshiftF^[s.rhoBudget - d.budget] s.seed ∧
      (∀ k : Fin 16, ∀ e, k < r → d.records[k.val]? = some e → t.entryIs k e) ∧
      t.entryIs r FactorRecord.sentinel ∧
      (∀ k : Fin 16, r < k → t.held (.fbufPrime k) = s.held (.fbufPrime k) ∧
        t.held (.fbufPower k) = s.held (.fbufPower k)) ∧
      SameRegsExceptFbufAnd [.res0, .seed, .status] s t ∧ SameOutside s t

/-- 44_factorization.md R220, the product law: whenever FACTOR completes without error on n ≥ 1, the product of
PRIME^POWER over FBUF[0..RES0−1] is n. -/
def Obligations.FactorProductLaw : Prop :=
  ∀ s ops t, Running .factor ops s → ops.a ≠ 0 → exec .factor s = .next t → Succeeded s t →
    t.recordProduct t.res0.toNat = ops.a.toNat

/-- 60_exceptions.md R254: EMIT raises FBUF_OVERFLOW before writing a record at index 15, so the sentinel always fits,
and on 64-bit operands it never is raised (44_factorization.md R222). -/
def Obligations.FactorNeverOverflows : Prop :=
  (∀ q e d, 15 ≤ d.records.length → emit q e d = .error (.error .fbufOverflow d.seed)) ∧
  (∀ q e d, d.records.length < 15 → ∃ d', emit q e d = .ok d' ∧ d'.records.length = d.records.length + 1) ∧
  ∀ limit budget n seed seed', n < 2 ^ 64 →
    factorF limit budget n seed ≠ .error (.error .fbufOverflow seed')

/-- 44_factorization.md R222 as far as the datapath alone gives it: a recorded PRIME of at most 32 bits is prime, and
every recorded PRIME is one that ISPRIME_F answers 1 for. -/
def Obligations.FactorRecordsPrimes : Prop :=
  ∀ limit budget n seed d, n < 2 ^ 64 → factorF limit budget n seed = .ok d →
    ∀ e ∈ d.records, isprimeF e.prime.toNat = true ∧ (e.prime.toNat ≤ 4294967295 → Nat.Prime e.prime.toNat)

/-- 44_factorization.md R218: no power wraps; every recorded power is between 1 and 63. -/
def Obligations.FactorPowersInRange : Prop :=
  ∀ limit budget n seed d, n < 2 ^ 64 → factorF limit budget n seed = .ok d →
    ∀ e ∈ d.records, 1 ≤ e.power.toNat ∧ e.power.toNat ≤ 63

/-- 60_exceptions.md R259, 44_factorization.md R210: FACTOR's state after its core turn is what the driver's answer
makes of it, and an error (of either code) leaves RES0 and the other registers unchanged, FBUF unspecified and SEED as
the last rho call left it: XORSHIFT_F iterated, once for each of at most `budget` calls (log 5, log 13; how many calls a
RETRY_LIMIT takes is the statement FactorCountsItsRhoCalls). Without a retry limit RETRY_LIMIT is never raised
(60_exceptions.md R255). -/
def Obligations.FactorErrorLeavesResults : Prop :=
  (∀ s ops, Running .factor ops s →
    exec .factor s = .next (s.finishFactor (factorF Config.rhoRetryLimit s.rhoBudget ops.a.toNat s.seed))) ∧
  (∀ s ops code seed, Running .factor ops s →
    ∃ t, t = s.finishFactor (.error (.error code seed)) ∧ Failed code s t ∧ t.held .seed = some seed ∧
      (∀ k, t.held (.fbufPrime k) = none ∧ t.held (.fbufPower k) = none) ∧
      SameRegsExceptFbufAnd [.seed, .status] s t ∧ SameOutside s t) ∧
  (∀ limit budget n seed code seed', factorF limit budget n seed = .error (.error code seed') →
    ∃ k, k ≤ budget ∧ seed' = xorshiftF^[k] seed) ∧
  ∀ budget n seed seed', factorF 0 budget n seed ≠ .error (.error .retryLimit seed')

/-- 60_exceptions.md R271, 44_factorization.md R223: FACTOR's state after its core turn is what the driver's answer
makes of it; where the rho calls of the turn do not suffice it stays BUSY, no register and no FBUF word changes, and its
next core turn may make more calls (the budget is the model's, log 5). -/
def Obligations.UnfinishedFactorStaysBusy : Prop :=
  ∀ s ops, Running .factor ops s →
    exec .factor s = .next (s.finishFactor (factorF Config.rhoRetryLimit s.rhoBudget ops.a.toNat s.seed)) ∧
    ∃ t, t = s.finishFactor (.error .spent) ∧ t.seq = s.seq ∧ SameRegsExcept [] s t ∧ SameOutside s t ∧
      s.rhoBudget < t.rhoBudget

/-- The model's budget of rho calls (log 5) does not show in a result: a larger budget gives the same records, SEED
and errors. -/
def Obligations.FactorResultIgnoresBudget : Prop :=
  ∀ limit b b' n seed, b ≤ b' →
    (∀ d, factorF limit b n seed = .ok d →
      ∃ d', factorF limit b' n seed = .ok d' ∧ d'.records = d.records ∧ d'.seed = d.seed) ∧
    (∀ code seed', factorF limit b n seed = .error (.error code seed') →
      factorF limit b' n seed = .error (.error code seed'))

/-- 70_reset_and_hazards.md R286, 44_factorization.md R223: with SEED = 0 and no retry limit, one failed rho call
repeats for ever. -/
def Obligations.ZeroSeedFailureRepeats : Prop :=
  ∀ m budget d, d.seed = 0 → ((rhoF m 0).1 = 1 ∨ (rhoF m 0).1 = m) → rhoRetry 0 m budget d = .error .spent

/-- 44_factorization.md R223, 60_exceptions.md R271: a FACTOR that never completes exists. Without a retry limit and with
SEED = 0, no budget suffices for 4347151273; with the limit 1 the same operand ends with RETRY_LIMIT and SEED 0. (The
operand rests on the reference datapath of R185, log 13.) -/
def Obligations.SomeFactorNeverCompletes : Prop :=
  (∀ budget, factorF 0 budget 4347151273 0 = .error .spent) ∧
  ∀ budget, 0 < budget → factorF 1 budget 4347151273 0 = .error (.error .retryLimit 0)

/-- 44_factorization.md R216: RHO_RETRY makes one rho call after another, each advancing SEED by one XORSHIFT_F step,
until one gives neither 1 nor m; a failed call counts in `fails`, and RETRY_LIMIT is raised at the first failure that
brings `fails` to the limit, when there is one. `result j` is what call number j (from 0) returns. (One generator step
a call is the reference datapath, log 13; `spent` is the model's budget, log 5.) -/
def Obligations.RhoRetryIsTheLoop : Prop :=
  ∀ limit m budget (d : Driver),
    let result : Nat → Nat := fun j => (rhoF m (xorshiftF^[j] d.seed)).1
    let failed : Nat → Prop := fun j => result j = 1 ∨ result j = m
    (∀ x d', rhoRetry limit m budget d = .ok (x, d') →
      ∃ k, k < budget ∧ (∀ j, j < k → failed j) ∧ ¬ failed k ∧ x = result k ∧
        (limit ≠ 0 → 0 < k → d.fails + k < limit) ∧
        d' = { d with seed := xorshiftF^[k + 1] d.seed, fails := d.fails + k, budget := budget - (k + 1) }) ∧
    (∀ code seed, rhoRetry limit m budget d = .error (.error code seed) →
      code = .retryLimit ∧ limit ≠ 0 ∧
      ∃ k, k < budget ∧ (∀ j, j ≤ k → failed j) ∧ limit ≤ d.fails + k + 1 ∧ (0 < k → d.fails + k < limit) ∧
        seed = xorshiftF^[k + 1] d.seed) ∧
    (rhoRetry limit m budget d = .error .spent →
      (∀ j, j < budget → failed j) ∧ (limit = 0 ∨ budget = 0 ∨ d.fails + budget < limit))

/-- 44_factorization.md R210, R216, R223; 60_exceptions.md R255, R259: the rho calls of a whole FACTOR. On success SEED
has advanced once for each call, and the calls are the failed ones, fewer than the limit L if there is one, and at most
two successful ones. RETRY_LIMIT comes at the L-th failed call counted over both loops: L failures on the residual n0 of
step 4, or, when one call splits n0 in two, L failures on n0 and on one of its parts m together. So with a limit the
command always ends, within L + 1 calls. Call number j (from 0) runs on SEED advanced j times (log 13; budget: log
5). -/
def Obligations.FactorCountsItsRhoCalls : Prop :=
  ∀ limit budget n seed, n < 2 ^ 64 →
    let result : Nat → Nat → Nat := fun j m => (rhoF m (xorshiftF^[j] seed)).1
    let failed : Nat → Nat → Prop := fun j m => result j m = 1 ∨ result j m = m
    (∀ d, factorF limit budget n seed = .ok d →
      d.budget ≤ budget ∧ d.seed = xorshiftF^[budget - d.budget] seed ∧
      d.fails ≤ budget - d.budget ∧ budget - d.budget ≤ d.fails + 2 ∧ (limit ≠ 0 → d.fails < limit)) ∧
    (∀ code seed', factorF limit budget n seed = .error (.error code seed') →
      code = .retryLimit ∧ limit ≠ 0 ∧ ∃ n0, n0 ∣ n ∧ 4294967295 < n0 ∧
        ((limit ≤ budget ∧ seed' = xorshiftF^[limit] seed ∧ ∀ j, j < limit → failed j n0) ∨
         (limit + 1 ≤ budget ∧ seed' = xorshiftF^[limit + 1] seed ∧
          ∃ j0 m, j0 < limit ∧ (∀ j, j < j0 → failed j n0) ∧ ¬ failed j0 n0 ∧
            (m = result j0 n0 ∨ m = n0 / result j0 n0) ∧ ∀ j, j0 < j → j ≤ limit → failed j m))) ∧
    (0 < limit → limit + 1 ≤ budget → factorF limit budget n seed ≠ .error .spent)

/-- 44_factorization.md R216, 60_exceptions.md R255: with a retry limit L > 0 a retry loop ends within L calls. -/
def Obligations.RetryLimitBoundsTheLoop : Prop :=
  ∀ limit m budget d, 0 < limit → limit ≤ budget → rhoRetry limit m budget d ≠ .error .spent

/-! ### Reset -/

/-- 10_state.md R42: the state after reset. A register without a reset value reads as a draw, and the high half of a
POWER word as 0. -/
def Obligations.ResetValues : Prop :=
  State.reset.held .cmd = some 0 ∧ State.reset.held .status = some 0 ∧
  State.reset.held .seed = some Config.seedInit ∧ State.reset.seq = .idle ∧
  ∀ r, r ≠ .cmd → r ≠ .status → r ≠ .seed → State.reset.held r = none ∧
    ∃ v t, State.reset.memRead r.offset 8 = .ok (v, t) ∧
      ((∀ k, r ≠ .fbufPower k) → v = Config.freeWord State.reset.draws) ∧ (∀ k, r = .fbufPower k → v.toNat < 2 ^ 32)

/-- 70_reset_and_hazards.md R280: reset puts every piece of the CORE's state at its reset value in one step and
abandons a running command; nothing of it survives. That a word that is ILLEGAL completes first, so that a reset turn
behind it takes two steps, is the model's reading of R252's "at once" (DEDUCED, log 6); that reset is a turn of the
schedule and leaves the host and the rest of the schedule alone is the model's choice (DESIGN CHOICE, log 17). -/
def Obligations.ResetAbandonsTheCommand : Prop :=
  ∀ s rest, s.turns = .reset :: rest →
    (s.seq = .idle ∨ (∃ i ops, Running i ops s) →
      ∃ t, step s = .next t ∧ t.seq = .idle ∧ SameRegsExcept [] State.reset t ∧ t.host = s.host ∧ t.turns = rest) ∧
    (∀ ops, s.seq = .busy none ops →
      ∃ t u, step s = .next t ∧ step t = .next u ∧ u.seq = .idle ∧ SameRegsExcept [] State.reset u ∧
        u.host = s.host ∧ u.turns = rest)

/-! ### Rules of the whole machine -/

/-- The state after reset meets the invariant. -/
def Obligations.ResetMeetsInvariant : Prop := MachineInv State.reset ∧ FbufLegal State.reset

/-- Every step keeps the legal combinations of STATUS (10_state.md R34), its agreement with SEQ, and the sampled
operands (10_state.md R38; 20_memory.md R70). -/
def Obligations.StepKeepsInvariant : Prop := ∀ s t, MachineInv s → step s = .next t → MachineInv t

/-- 10_state.md R37: every step keeps FBUF's specified entries legal: the sentinel, or PRIME > 1 and POWER ≥ 1. -/
def Obligations.StepKeepsFbufLegal : Prop := ∀ s t, FbufLegal s → step s = .next t → FbufLegal t

/-- 43_pollard_rho.md R187: SEED is changed by RHO, FACTOR, XSHIFT, a host write and reset, and by nothing else. -/
def Obligations.OnlyTheseChangeSeed : Prop :=
  ∀ s t, step s = .next t → t.held .seed ≠ s.held .seed →
    s.runsNext .rho ∨ s.runsNext .factor ∨ s.runsNext .xshift ∨ (s.seq = .idle ∧ s.hostWritesNext .seed) ∨ s.resetNext

/-- 10_state.md R31: the core never writes OPA, OPB or OPC; only an idle host write and reset change them. -/
def Obligations.OnlyHostAndResetChangeOperands : Prop :=
  ∀ s t (r : Reg), r = .opa ∨ r = .opb ∨ r = .opc → step s = .next t → t.held r ≠ s.held r →
    (s.seq = .idle ∧ s.hostWritesNext r) ∨ s.resetNext

/-- 30_encoding.md R93, 10_state.md R36: only SQPOW (and reset) changes RES1 and RES2, only FACTOR (and reset) changes
FBUF, and RES0 changes only on a core turn (or reset). -/
def Obligations.OnlyTheseChangeResults : Prop :=
  ∀ s t, step s = .next t →
    (t.held .res1 ≠ s.held .res1 ∨ t.held .res2 ≠ s.held .res2 → s.runsNext .sqpow ∨ s.resetNext) ∧
    (∀ k, t.held (.fbufPrime k) ≠ s.held (.fbufPrime k) ∨ t.held (.fbufPower k) ≠ s.held (.fbufPower k) →
      s.runsNext .factor ∨ s.resetNext) ∧
    (t.held .res0 ≠ s.held .res0 → (∃ i, s.runsNext i) ∨ s.resetNext)

/-! ### The host agent -/

/-- 30_encoding.md R96: `bnz` goes to its label when the bit is 1 and on to the next line when it is 0, and `bz` the
other way round; neither makes a bus access. -/
def Obligations.HostBranches : Prop :=
  ∀ (s : State) (t bit target : Nat) (v : Word), getTemp t s.host.temps = some v →
    s.hostLine (.bnz t bit target) = .next (s.goTo (if v.getLsbD bit then target else s.host.line + 1)) ∧
    s.hostLine (.bz t bit target) = .next (s.goTo (if v.getLsbD bit then s.host.line + 1 else target))

/-- 30_encoding.md R96, 20_memory.md R63, R65: the lines `wr`, `cmd` and MemWrite perform one bus write, the lines `rd`
and MemRead one bus read; then the host is at its next line, a temporary holding what was read. A refused access faults.
Nothing else changes than what the access itself does. -/
def Obligations.HostLinesAreOneAccess : Prop :=
  ∀ s : State,
    (∀ off n v,
      (∀ s', s.memWrite off n v = .ok s' →
        s.hostLine (.memWrite off n v) = .next { s' with host := { s.host with line := s.host.line + 1 } }) ∧
      (∀ f, s.memWrite off n v = .error f → s.hostLine (.memWrite off n v) = .fault f)) ∧
    (∀ r v, s.hostLine (.wr r v) = s.hostLine (.memWrite r.offset 8 v)) ∧
    (∀ i, s.hostLine (.cmd i) = s.hostLine (.memWrite 0x000 8 (encode i))) ∧
    (∀ off n t,
      (∀ v s', s.memRead off n = .ok (v, s') →
        ∃ temps, s.hostLine (.memRead off n t) =
            .next { s' with host := { s.host with temps := temps, line := s.host.line + 1 } } ∧
          getTemp t temps = some v ∧ ∀ u, u ≠ t → getTemp u temps = getTemp u s.host.temps) ∧
      (∀ f, s.memRead off n = .error f → s.hostLine (.memRead off n t) = .fault f)) ∧
    (∀ r t, ∃ temps, s.hostLine (.rd r t) =
        .next { (s.readReg r).2 with host := { s.host with temps := temps, line := s.host.line + 1 } } ∧
      getTemp t temps = some (s.readReg r).1 ∧ ∀ u, u ≠ t → getTemp u temps = getTemp u s.host.temps)

/-- A step on the host's turn is the line at `host.line` of its program: the turn is taken off the schedule, and with an
empty schedule the host moves while the core is idle (the model's schedule, log 4). -/
def Obligations.HostTurnRunsTheLine : Prop :=
  ∀ s op, s.host.prog[s.host.line]? = some op → (∀ ops, s.seq ≠ .busy none ops) →
    (∀ rest, s.turns = .host :: rest → step s = ({ s with turns := rest } : State).hostLine op) ∧
    (s.turns = [] → s.seq = .idle → step s = s.hostLine op)
end

