-- ==== Sys2Proof/Laws/State.lean ====
section
/-! SUPPORT. One lemma per field per update of State, so that no later proof unfolds a record update. -/

namespace Sys2Proof.Machine

/-! ### State.setRes0 -/

@[simp] theorem setRes0_status (s : State) (v : Word) : (s.setRes0 v).status = s.status := rfl
@[simp] theorem setRes0_opa (s : State) (v : Word) : (s.setRes0 v).opa = s.opa := rfl
@[simp] theorem setRes0_opb (s : State) (v : Word) : (s.setRes0 v).opb = s.opb := rfl
@[simp] theorem setRes0_opc (s : State) (v : Word) : (s.setRes0 v).opc = s.opc := rfl
@[simp] theorem setRes0_res0 (s : State) (v : Word) : (s.setRes0 v).res0 = v := rfl
@[simp] theorem setRes0_res1 (s : State) (v : Word) : (s.setRes0 v).res1 = s.res1 := rfl
@[simp] theorem setRes0_res2 (s : State) (v : Word) : (s.setRes0 v).res2 = s.res2 := rfl
@[simp] theorem setRes0_seed (s : State) (v : Word) : (s.setRes0 v).seed = s.seed := rfl
@[simp] theorem setRes0_fbuf (s : State) (v : Word) : (s.setRes0 v).fbuf = s.fbuf := rfl
@[simp] theorem setRes0_seq (s : State) (v : Word) : (s.setRes0 v).seq = s.seq := rfl
@[simp] theorem setRes0_unspecified (s : State) (v : Word) : (s.setRes0 v).unspecified = { s.unspecified with res0 := false } := rfl
@[simp] theorem setRes0_draws (s : State) (v : Word) : (s.setRes0 v).draws = s.draws := rfl
@[simp] theorem setRes0_coreTurns (s : State) (v : Word) : (s.setRes0 v).coreTurns = s.coreTurns := rfl
@[simp] theorem setRes0_host (s : State) (v : Word) : (s.setRes0 v).host = s.host := rfl
@[simp] theorem setRes0_turns (s : State) (v : Word) : (s.setRes0 v).turns = s.turns := rfl

/-! ### State.setRes1 -/

@[simp] theorem setRes1_status (s : State) (v : Word) : (s.setRes1 v).status = s.status := rfl
@[simp] theorem setRes1_opa (s : State) (v : Word) : (s.setRes1 v).opa = s.opa := rfl
@[simp] theorem setRes1_opb (s : State) (v : Word) : (s.setRes1 v).opb = s.opb := rfl
@[simp] theorem setRes1_opc (s : State) (v : Word) : (s.setRes1 v).opc = s.opc := rfl
@[simp] theorem setRes1_res0 (s : State) (v : Word) : (s.setRes1 v).res0 = s.res0 := rfl
@[simp] theorem setRes1_res1 (s : State) (v : Word) : (s.setRes1 v).res1 = v := rfl
@[simp] theorem setRes1_res2 (s : State) (v : Word) : (s.setRes1 v).res2 = s.res2 := rfl
@[simp] theorem setRes1_seed (s : State) (v : Word) : (s.setRes1 v).seed = s.seed := rfl
@[simp] theorem setRes1_fbuf (s : State) (v : Word) : (s.setRes1 v).fbuf = s.fbuf := rfl
@[simp] theorem setRes1_seq (s : State) (v : Word) : (s.setRes1 v).seq = s.seq := rfl
@[simp] theorem setRes1_unspecified (s : State) (v : Word) : (s.setRes1 v).unspecified = { s.unspecified with res1 := false } := rfl
@[simp] theorem setRes1_draws (s : State) (v : Word) : (s.setRes1 v).draws = s.draws := rfl
@[simp] theorem setRes1_coreTurns (s : State) (v : Word) : (s.setRes1 v).coreTurns = s.coreTurns := rfl
@[simp] theorem setRes1_host (s : State) (v : Word) : (s.setRes1 v).host = s.host := rfl
@[simp] theorem setRes1_turns (s : State) (v : Word) : (s.setRes1 v).turns = s.turns := rfl

/-! ### State.setRes2 -/

@[simp] theorem setRes2_status (s : State) (v : Word) : (s.setRes2 v).status = s.status := rfl
@[simp] theorem setRes2_opa (s : State) (v : Word) : (s.setRes2 v).opa = s.opa := rfl
@[simp] theorem setRes2_opb (s : State) (v : Word) : (s.setRes2 v).opb = s.opb := rfl
@[simp] theorem setRes2_opc (s : State) (v : Word) : (s.setRes2 v).opc = s.opc := rfl
@[simp] theorem setRes2_res0 (s : State) (v : Word) : (s.setRes2 v).res0 = s.res0 := rfl
@[simp] theorem setRes2_res1 (s : State) (v : Word) : (s.setRes2 v).res1 = s.res1 := rfl
@[simp] theorem setRes2_res2 (s : State) (v : Word) : (s.setRes2 v).res2 = v := rfl
@[simp] theorem setRes2_seed (s : State) (v : Word) : (s.setRes2 v).seed = s.seed := rfl
@[simp] theorem setRes2_fbuf (s : State) (v : Word) : (s.setRes2 v).fbuf = s.fbuf := rfl
@[simp] theorem setRes2_seq (s : State) (v : Word) : (s.setRes2 v).seq = s.seq := rfl
@[simp] theorem setRes2_unspecified (s : State) (v : Word) : (s.setRes2 v).unspecified = { s.unspecified with res2 := false } := rfl
@[simp] theorem setRes2_draws (s : State) (v : Word) : (s.setRes2 v).draws = s.draws := rfl
@[simp] theorem setRes2_coreTurns (s : State) (v : Word) : (s.setRes2 v).coreTurns = s.coreTurns := rfl
@[simp] theorem setRes2_host (s : State) (v : Word) : (s.setRes2 v).host = s.host := rfl
@[simp] theorem setRes2_turns (s : State) (v : Word) : (s.setRes2 v).turns = s.turns := rfl

/-! ### State.setSeed -/

@[simp] theorem setSeed_status (s : State) (v : Word) : (s.setSeed v).status = s.status := rfl
@[simp] theorem setSeed_opa (s : State) (v : Word) : (s.setSeed v).opa = s.opa := rfl
@[simp] theorem setSeed_opb (s : State) (v : Word) : (s.setSeed v).opb = s.opb := rfl
@[simp] theorem setSeed_opc (s : State) (v : Word) : (s.setSeed v).opc = s.opc := rfl
@[simp] theorem setSeed_res0 (s : State) (v : Word) : (s.setSeed v).res0 = s.res0 := rfl
@[simp] theorem setSeed_res1 (s : State) (v : Word) : (s.setSeed v).res1 = s.res1 := rfl
@[simp] theorem setSeed_res2 (s : State) (v : Word) : (s.setSeed v).res2 = s.res2 := rfl
@[simp] theorem setSeed_seed (s : State) (v : Word) : (s.setSeed v).seed = v := rfl
@[simp] theorem setSeed_fbuf (s : State) (v : Word) : (s.setSeed v).fbuf = s.fbuf := rfl
@[simp] theorem setSeed_seq (s : State) (v : Word) : (s.setSeed v).seq = s.seq := rfl
@[simp] theorem setSeed_unspecified (s : State) (v : Word) : (s.setSeed v).unspecified = s.unspecified := rfl
@[simp] theorem setSeed_draws (s : State) (v : Word) : (s.setSeed v).draws = s.draws := rfl
@[simp] theorem setSeed_coreTurns (s : State) (v : Word) : (s.setSeed v).coreTurns = s.coreTurns := rfl
@[simp] theorem setSeed_host (s : State) (v : Word) : (s.setSeed v).host = s.host := rfl
@[simp] theorem setSeed_turns (s : State) (v : Word) : (s.setSeed v).turns = s.turns := rfl

/-! ### State.setFbuf -/

@[simp] theorem setFbuf_status (s : State) (l : List FactorRecord) : (s.setFbuf l).status = s.status := rfl
@[simp] theorem setFbuf_opa (s : State) (l : List FactorRecord) : (s.setFbuf l).opa = s.opa := rfl
@[simp] theorem setFbuf_opb (s : State) (l : List FactorRecord) : (s.setFbuf l).opb = s.opb := rfl
@[simp] theorem setFbuf_opc (s : State) (l : List FactorRecord) : (s.setFbuf l).opc = s.opc := rfl
@[simp] theorem setFbuf_res0 (s : State) (l : List FactorRecord) : (s.setFbuf l).res0 = s.res0 := rfl
@[simp] theorem setFbuf_res1 (s : State) (l : List FactorRecord) : (s.setFbuf l).res1 = s.res1 := rfl
@[simp] theorem setFbuf_res2 (s : State) (l : List FactorRecord) : (s.setFbuf l).res2 = s.res2 := rfl
@[simp] theorem setFbuf_seed (s : State) (l : List FactorRecord) : (s.setFbuf l).seed = s.seed := rfl
@[simp] theorem setFbuf_seq (s : State) (l : List FactorRecord) : (s.setFbuf l).seq = s.seq := rfl
@[simp] theorem setFbuf_draws (s : State) (l : List FactorRecord) : (s.setFbuf l).draws = s.draws := rfl
@[simp] theorem setFbuf_coreTurns (s : State) (l : List FactorRecord) : (s.setFbuf l).coreTurns = s.coreTurns := rfl
@[simp] theorem setFbuf_host (s : State) (l : List FactorRecord) : (s.setFbuf l).host = s.host := rfl
@[simp] theorem setFbuf_turns (s : State) (l : List FactorRecord) : (s.setFbuf l).turns = s.turns := rfl

/-! ### State.forgetFbuf -/

@[simp] theorem forgetFbuf_status (s : State) : (s.forgetFbuf).status = s.status := rfl
@[simp] theorem forgetFbuf_opa (s : State) : (s.forgetFbuf).opa = s.opa := rfl
@[simp] theorem forgetFbuf_opb (s : State) : (s.forgetFbuf).opb = s.opb := rfl
@[simp] theorem forgetFbuf_opc (s : State) : (s.forgetFbuf).opc = s.opc := rfl
@[simp] theorem forgetFbuf_res0 (s : State) : (s.forgetFbuf).res0 = s.res0 := rfl
@[simp] theorem forgetFbuf_res1 (s : State) : (s.forgetFbuf).res1 = s.res1 := rfl
@[simp] theorem forgetFbuf_res2 (s : State) : (s.forgetFbuf).res2 = s.res2 := rfl
@[simp] theorem forgetFbuf_seed (s : State) : (s.forgetFbuf).seed = s.seed := rfl
@[simp] theorem forgetFbuf_fbuf (s : State) : (s.forgetFbuf).fbuf = s.fbuf := rfl
@[simp] theorem forgetFbuf_seq (s : State) : (s.forgetFbuf).seq = s.seq := rfl
@[simp] theorem forgetFbuf_unspecified (s : State) : (s.forgetFbuf).unspecified = { s.unspecified with fbuf := Vector.replicate 16 true } := rfl
@[simp] theorem forgetFbuf_draws (s : State) : (s.forgetFbuf).draws = s.draws := rfl
@[simp] theorem forgetFbuf_coreTurns (s : State) : (s.forgetFbuf).coreTurns = s.coreTurns := rfl
@[simp] theorem forgetFbuf_host (s : State) : (s.forgetFbuf).host = s.host := rfl
@[simp] theorem forgetFbuf_turns (s : State) : (s.forgetFbuf).turns = s.turns := rfl

/-! ### State.start -/

@[simp] theorem start_status (s : State) (c : Option Instr) (o : Operands) : (s.start c o).status = statusAccepted s.status := rfl
@[simp] theorem start_opa (s : State) (c : Option Instr) (o : Operands) : (s.start c o).opa = s.opa := rfl
@[simp] theorem start_opb (s : State) (c : Option Instr) (o : Operands) : (s.start c o).opb = s.opb := rfl
@[simp] theorem start_opc (s : State) (c : Option Instr) (o : Operands) : (s.start c o).opc = s.opc := rfl
@[simp] theorem start_res0 (s : State) (c : Option Instr) (o : Operands) : (s.start c o).res0 = s.res0 := rfl
@[simp] theorem start_res1 (s : State) (c : Option Instr) (o : Operands) : (s.start c o).res1 = s.res1 := rfl
@[simp] theorem start_res2 (s : State) (c : Option Instr) (o : Operands) : (s.start c o).res2 = s.res2 := rfl
@[simp] theorem start_seed (s : State) (c : Option Instr) (o : Operands) : (s.start c o).seed = s.seed := rfl
@[simp] theorem start_fbuf (s : State) (c : Option Instr) (o : Operands) : (s.start c o).fbuf = s.fbuf := rfl
@[simp] theorem start_seq (s : State) (c : Option Instr) (o : Operands) : (s.start c o).seq = .busy c o := rfl
@[simp] theorem start_unspecified (s : State) (c : Option Instr) (o : Operands) : (s.start c o).unspecified = s.unspecified := rfl
@[simp] theorem start_draws (s : State) (c : Option Instr) (o : Operands) : (s.start c o).draws = s.draws := rfl
@[simp] theorem start_coreTurns (s : State) (c : Option Instr) (o : Operands) : (s.start c o).coreTurns = 0 := rfl
@[simp] theorem start_host (s : State) (c : Option Instr) (o : Operands) : (s.start c o).host = s.host := rfl
@[simp] theorem start_turns (s : State) (c : Option Instr) (o : Operands) : (s.start c o).turns = s.turns := rfl

/-! ### State.complete -/

@[simp] theorem complete_status (s : State) : (s.complete).status = statusSucceeded s.status := rfl
@[simp] theorem complete_opa (s : State) : (s.complete).opa = s.opa := rfl
@[simp] theorem complete_opb (s : State) : (s.complete).opb = s.opb := rfl
@[simp] theorem complete_opc (s : State) : (s.complete).opc = s.opc := rfl
@[simp] theorem complete_res0 (s : State) : (s.complete).res0 = s.res0 := rfl
@[simp] theorem complete_res1 (s : State) : (s.complete).res1 = s.res1 := rfl
@[simp] theorem complete_res2 (s : State) : (s.complete).res2 = s.res2 := rfl
@[simp] theorem complete_seed (s : State) : (s.complete).seed = s.seed := rfl
@[simp] theorem complete_fbuf (s : State) : (s.complete).fbuf = s.fbuf := rfl
@[simp] theorem complete_seq (s : State) : (s.complete).seq = .idle := rfl
@[simp] theorem complete_unspecified (s : State) : (s.complete).unspecified = s.unspecified := rfl
@[simp] theorem complete_draws (s : State) : (s.complete).draws = s.draws := rfl
@[simp] theorem complete_coreTurns (s : State) : (s.complete).coreTurns = 0 := rfl
@[simp] theorem complete_host (s : State) : (s.complete).host = s.host := rfl
@[simp] theorem complete_turns (s : State) : (s.complete).turns = s.turns := rfl

/-! ### State.completeError -/

@[simp] theorem completeError_status (s : State) (e : ErrCode) : (s.completeError e).status = statusFailed e s.status := rfl
@[simp] theorem completeError_opa (s : State) (e : ErrCode) : (s.completeError e).opa = s.opa := rfl
@[simp] theorem completeError_opb (s : State) (e : ErrCode) : (s.completeError e).opb = s.opb := rfl
@[simp] theorem completeError_opc (s : State) (e : ErrCode) : (s.completeError e).opc = s.opc := rfl
@[simp] theorem completeError_res0 (s : State) (e : ErrCode) : (s.completeError e).res0 = s.res0 := rfl
@[simp] theorem completeError_res1 (s : State) (e : ErrCode) : (s.completeError e).res1 = s.res1 := rfl
@[simp] theorem completeError_res2 (s : State) (e : ErrCode) : (s.completeError e).res2 = s.res2 := rfl
@[simp] theorem completeError_seed (s : State) (e : ErrCode) : (s.completeError e).seed = s.seed := rfl
@[simp] theorem completeError_fbuf (s : State) (e : ErrCode) : (s.completeError e).fbuf = s.fbuf := rfl
@[simp] theorem completeError_seq (s : State) (e : ErrCode) : (s.completeError e).seq = .idle := rfl
@[simp] theorem completeError_unspecified (s : State) (e : ErrCode) : (s.completeError e).unspecified = s.unspecified := rfl
@[simp] theorem completeError_draws (s : State) (e : ErrCode) : (s.completeError e).draws = s.draws := rfl
@[simp] theorem completeError_coreTurns (s : State) (e : ErrCode) : (s.completeError e).coreTurns = 0 := rfl
@[simp] theorem completeError_host (s : State) (e : ErrCode) : (s.completeError e).host = s.host := rfl
@[simp] theorem completeError_turns (s : State) (e : ErrCode) : (s.completeError e).turns = s.turns := rfl

/-! ### State.goTo -/

@[simp] theorem goTo_status (s : State) (n : Nat) : (s.goTo n).status = s.status := rfl
@[simp] theorem goTo_opa (s : State) (n : Nat) : (s.goTo n).opa = s.opa := rfl
@[simp] theorem goTo_opb (s : State) (n : Nat) : (s.goTo n).opb = s.opb := rfl
@[simp] theorem goTo_opc (s : State) (n : Nat) : (s.goTo n).opc = s.opc := rfl
@[simp] theorem goTo_res0 (s : State) (n : Nat) : (s.goTo n).res0 = s.res0 := rfl
@[simp] theorem goTo_res1 (s : State) (n : Nat) : (s.goTo n).res1 = s.res1 := rfl
@[simp] theorem goTo_res2 (s : State) (n : Nat) : (s.goTo n).res2 = s.res2 := rfl
@[simp] theorem goTo_seed (s : State) (n : Nat) : (s.goTo n).seed = s.seed := rfl
@[simp] theorem goTo_fbuf (s : State) (n : Nat) : (s.goTo n).fbuf = s.fbuf := rfl
@[simp] theorem goTo_seq (s : State) (n : Nat) : (s.goTo n).seq = s.seq := rfl
@[simp] theorem goTo_unspecified (s : State) (n : Nat) : (s.goTo n).unspecified = s.unspecified := rfl
@[simp] theorem goTo_draws (s : State) (n : Nat) : (s.goTo n).draws = s.draws := rfl
@[simp] theorem goTo_coreTurns (s : State) (n : Nat) : (s.goTo n).coreTurns = s.coreTurns := rfl
@[simp] theorem goTo_host (s : State) (n : Nat) : (s.goTo n).host = { s.host with line := n } := rfl
@[simp] theorem goTo_turns (s : State) (n : Nat) : (s.goTo n).turns = s.turns := rfl

/-! ### State.nextLine -/

@[simp] theorem nextLine_status (s : State) : (s.nextLine).status = s.status := rfl
@[simp] theorem nextLine_opa (s : State) : (s.nextLine).opa = s.opa := rfl
@[simp] theorem nextLine_opb (s : State) : (s.nextLine).opb = s.opb := rfl
@[simp] theorem nextLine_opc (s : State) : (s.nextLine).opc = s.opc := rfl
@[simp] theorem nextLine_res0 (s : State) : (s.nextLine).res0 = s.res0 := rfl
@[simp] theorem nextLine_res1 (s : State) : (s.nextLine).res1 = s.res1 := rfl
@[simp] theorem nextLine_res2 (s : State) : (s.nextLine).res2 = s.res2 := rfl
@[simp] theorem nextLine_seed (s : State) : (s.nextLine).seed = s.seed := rfl
@[simp] theorem nextLine_fbuf (s : State) : (s.nextLine).fbuf = s.fbuf := rfl
@[simp] theorem nextLine_seq (s : State) : (s.nextLine).seq = s.seq := rfl
@[simp] theorem nextLine_unspecified (s : State) : (s.nextLine).unspecified = s.unspecified := rfl
@[simp] theorem nextLine_draws (s : State) : (s.nextLine).draws = s.draws := rfl
@[simp] theorem nextLine_coreTurns (s : State) : (s.nextLine).coreTurns = s.coreTurns := rfl
@[simp] theorem nextLine_host (s : State) : (s.nextLine).host = { s.host with line := s.host.line + 1 } := rfl
@[simp] theorem nextLine_turns (s : State) : (s.nextLine).turns = s.turns := rfl

/-! ### State.setTempNext -/

@[simp] theorem setTempNext_status (s : State) (n : Nat) (v : Word) : (s.setTempNext n v).status = s.status := rfl
@[simp] theorem setTempNext_opa (s : State) (n : Nat) (v : Word) : (s.setTempNext n v).opa = s.opa := rfl
@[simp] theorem setTempNext_opb (s : State) (n : Nat) (v : Word) : (s.setTempNext n v).opb = s.opb := rfl
@[simp] theorem setTempNext_opc (s : State) (n : Nat) (v : Word) : (s.setTempNext n v).opc = s.opc := rfl
@[simp] theorem setTempNext_res0 (s : State) (n : Nat) (v : Word) : (s.setTempNext n v).res0 = s.res0 := rfl
@[simp] theorem setTempNext_res1 (s : State) (n : Nat) (v : Word) : (s.setTempNext n v).res1 = s.res1 := rfl
@[simp] theorem setTempNext_res2 (s : State) (n : Nat) (v : Word) : (s.setTempNext n v).res2 = s.res2 := rfl
@[simp] theorem setTempNext_seed (s : State) (n : Nat) (v : Word) : (s.setTempNext n v).seed = s.seed := rfl
@[simp] theorem setTempNext_fbuf (s : State) (n : Nat) (v : Word) : (s.setTempNext n v).fbuf = s.fbuf := rfl
@[simp] theorem setTempNext_seq (s : State) (n : Nat) (v : Word) : (s.setTempNext n v).seq = s.seq := rfl
@[simp] theorem setTempNext_unspecified (s : State) (n : Nat) (v : Word) : (s.setTempNext n v).unspecified = s.unspecified := rfl
@[simp] theorem setTempNext_draws (s : State) (n : Nat) (v : Word) : (s.setTempNext n v).draws = s.draws := rfl
@[simp] theorem setTempNext_coreTurns (s : State) (n : Nat) (v : Word) : (s.setTempNext n v).coreTurns = s.coreTurns := rfl
@[simp] theorem setTempNext_host (s : State) (n : Nat) (v : Word) : (s.setTempNext n v).host = { s.host with temps := setTemp n v s.host.temps, line := s.host.line + 1 } := rfl
@[simp] theorem setTempNext_turns (s : State) (n : Nat) (v : Word) : (s.setTempNext n v).turns = s.turns := rfl

/-! ### State.draw and State.assertReset -/

@[simp] theorem draw_fst (s : State) : s.draw.1 = Config.freeWord s.draws := rfl
@[simp] theorem draw_snd (s : State) : s.draw.2 = { s with draws := s.draws + 1 } := rfl
@[simp] theorem assertReset_seq (s : State) : s.assertReset.seq = .idle := rfl
@[simp] theorem assertReset_status (s : State) : s.assertReset.status = 0 := rfl
@[simp] theorem assertReset_seed (s : State) : s.assertReset.seed = Config.seedInit := rfl
@[simp] theorem assertReset_unspecified (s : State) : s.assertReset.unspecified = Unspecified.atReset := rfl
@[simp] theorem assertReset_coreTurns (s : State) : s.assertReset.coreTurns = 0 := rfl
@[simp] theorem assertReset_host (s : State) : s.assertReset.host = s.host := rfl
@[simp] theorem assertReset_turns (s : State) : s.assertReset.turns = s.turns := rfl
@[simp] theorem assertReset_draws (s : State) : s.assertReset.draws = s.draws := rfl

@[simp] theorem unlessUnspecified_true (v : Word) : unlessUnspecified true v = none := rfl
@[simp] theorem unlessUnspecified_false (v : Word) : unlessUnspecified false v = some v := rfl

/-! ### What a register holds depends on its own fields only -/

/-- Updates of fields that no register shows. -/
@[simp] theorem held_withDraws (s : State) (n : Nat) (r : Reg) : ({ s with draws := n } : State).held r = s.held r := by
  cases r <;> rfl
@[simp] theorem held_withTurns (s : State) (l : List Turn) (r : Reg) :
    ({ s with turns := l } : State).held r = s.held r := by cases r <;> rfl
@[simp] theorem held_withCoreTurns (s : State) (n : Nat) (r : Reg) :
    ({ s with coreTurns := n } : State).held r = s.held r := by cases r <;> rfl
@[simp] theorem held_goTo (s : State) (n : Nat) (r : Reg) : (s.goTo n).held r = s.held r := by cases r <;> rfl
@[simp] theorem held_nextLine (s : State) (r : Reg) : s.nextLine.held r = s.held r := by cases r <;> rfl
@[simp] theorem held_setTempNext (s : State) (n : Nat) (v : Word) (r : Reg) :
    (s.setTempNext n v).held r = s.held r := by cases r <;> rfl
@[simp] theorem held_assertReset (s : State) (r : Reg) : s.assertReset.held r = State.reset.held r := by
  cases r <;> rfl

/-- Updates of one register. -/
theorem held_setRes0 (s : State) (v : Word) (r : Reg) :
    (s.setRes0 v).held r = if r = .res0 then some v else s.held r := by cases r <;> rfl
theorem held_setRes1 (s : State) (v : Word) (r : Reg) :
    (s.setRes1 v).held r = if r = .res1 then some v else s.held r := by cases r <;> rfl
theorem held_setRes2 (s : State) (v : Word) (r : Reg) :
    (s.setRes2 v).held r = if r = .res2 then some v else s.held r := by cases r <;> rfl
theorem held_setSeed (s : State) (v : Word) (r : Reg) :
    (s.setSeed v).held r = if r = .seed then some v else s.held r := by cases r <;> rfl
theorem held_complete (s : State) (r : Reg) :
    s.complete.held r = if r = .status then some (statusSucceeded s.status) else s.held r := by
  cases r <;> rfl
theorem held_completeError (s : State) (e : ErrCode) (r : Reg) :
    (s.completeError e).held r = if r = .status then some (statusFailed e s.status) else s.held r := by
  cases r <;> rfl
theorem held_start (s : State) (c : Option Instr) (o : Operands) (r : Reg) :
    (s.start c o).held r = if r = .status then some (statusAccepted s.status) else s.held r := by
  cases r <;> rfl

/-- Updates of FBUF change FBUF words only. -/
theorem held_setFbuf_of_not_fbuf (s : State) (l : List FactorRecord) (r : Reg)
    (h : ∀ k, r ≠ .fbufPrime k ∧ r ≠ .fbufPower k) : (s.setFbuf l).held r = s.held r := by
  cases r with
  | fbufPrime k => exact absurd rfl (h k).1
  | fbufPower k => exact absurd rfl (h k).2
  | _ => simp only [State.held, State.setFbuf]
theorem held_forgetFbuf_of_not_fbuf (s : State) (r : Reg) (h : ∀ k, r ≠ .fbufPrime k ∧ r ≠ .fbufPower k) :
    s.forgetFbuf.held r = s.held r := by
  cases r with
  | fbufPrime k => exact absurd rfl (h k).1
  | fbufPower k => exact absurd rfl (h k).2
  | _ => rfl
@[simp] theorem forgetFbuf_fbufPrime (s : State) (k : Fin 16) : s.forgetFbuf.held (.fbufPrime k) = none := by
  simp [State.held, unlessUnspecified]
@[simp] theorem forgetFbuf_fbufPower (s : State) (k : Fin 16) : s.forgetFbuf.held (.fbufPower k) = none := by
  simp [State.held, unlessUnspecified]

/-- The entries of FBUF after a factor sequence is written (44_factorization.md R218). -/
theorem setFbuf_entry (s : State) (l : List FactorRecord) (k : Fin 16) :
    (s.setFbuf l).fbuf[k.val] =
      if k.val < l.length then l.getD k.val { prime := 0, power := 0 }
      else if k.val = l.length then { prime := 0, power := 0 } else s.fbuf[k.val] := by
  simp [State.setFbuf]
theorem setFbuf_entry_unspecified (s : State) (l : List FactorRecord) (k : Fin 16) :
    (s.setFbuf l).unspecified.fbuf[k.val] = if k.val ≤ l.length then false else s.unspecified.fbuf[k.val] := by
  simp [State.setFbuf]

end Sys2Proof.Machine
end

