-- ==== Sys2Proof/Laws/Status.lean ====
section
/-! SUPPORT. What each STATUS update leaves in each field: the small lemmas of Machine/Flags.lean, from one lemma per
bit writer. -/

namespace Sys2Proof.Machine

theorem getLsbD_setBit (w : Word) (k : Nat) (b : Bool) (j : Nat) (hk : k < 64) :
    (setBit w k b).getLsbD j = if j = k then b else w.getLsbD j := by
  have hone : ∀ j, (1#64 <<< k).getLsbD j = decide (j = k) := by
    intro j
    rw [BitVec.getLsbD_shiftLeft, BitVec.getLsbD_one]
    by_cases h : j = k
    · subst h; simp [hk]
    · have : ¬ (j < 64 ∧ k ≤ j ∧ j - k = 0) := by omega
      simp only [h, decide_false]
      by_cases h1 : j < 64 <;> by_cases h2 : j < k <;> simp_all
  unfold setBit
  cases b
  · simp only [Bool.false_eq_true, ↓reduceIte, BitVec.getLsbD_and, BitVec.getLsbD_not, hone]
    by_cases h : j = k
    · simp [h]
    · by_cases hj : j < 64
      · simp [h, hj]
      · simp [h, hj, BitVec.getLsbD_of_ge w j (by omega)]
  · simp only [↓reduceIte, BitVec.getLsbD_or, hone]
    by_cases h : j = k <;> simp [h]

theorem getLsbD_setErrCode (w : Word) (code : Byte) (j : Nat) :
    (setErrCode w code).getLsbD j = if 8 ≤ j ∧ j < 16 then code.getLsbD (j - 8) else w.getLsbD j := by
  have hmask : ∀ j, (0xFF00#64).getLsbD j = decide (8 ≤ j ∧ j < 16) := by
    intro j
    by_cases hj : j < 64
    · have : ∀ j : Fin 64, (0xFF00#64).getLsbD j.val = decide (8 ≤ j.val ∧ j.val < 16) := by decide
      exact this ⟨j, hj⟩
    · rw [BitVec.getLsbD_of_ge _ j (by omega)]; simp; omega
  unfold setErrCode
  rw [BitVec.getLsbD_or, BitVec.getLsbD_and, BitVec.getLsbD_not, hmask, BitVec.getLsbD_shiftLeft,
    BitVec.getLsbD_setWidth]
  by_cases h : 8 ≤ j ∧ j < 16
  · have h1 : j < 64 := by omega
    have h2 : ¬ j < 8 := by omega
    have h3 : j - 8 < 64 := by omega
    simp [h, h1, h2, h3]
  · by_cases hj : j < 64
    · by_cases h8 : j < 8
      · have h9 : ¬ 8 ≤ j := by omega
        simp [h8, h9, hj]
      · simp [h, hj, BitVec.getLsbD_of_ge code (j - 8) (by omega)]
    · simp [h, hj, BitVec.getLsbD_of_ge w j (by omega)]

/-- Two words that agree on every bit but 0 to 3 and 8 to 15 have the same reserved bits. -/
theorem reserved_eq_of_bits (u w : Word) (h : ∀ j, 4 ≤ j → j < 8 ∨ 16 ≤ j → u.getLsbD j = w.getLsbD j) :
    u &&& statusReservedMask = w &&& statusReservedMask := by
  apply BitVec.eq_of_getLsbD_eq
  intro j hj
  have hm : ∀ j : Fin 64, statusReservedMask.getLsbD j.val = decide (4 ≤ j.val ∧ (j.val < 8 ∨ 16 ≤ j.val)) := by
    decide
  rw [BitVec.getLsbD_and, BitVec.getLsbD_and, hm ⟨j, hj⟩]
  by_cases h4 : 4 ≤ j ∧ (j < 8 ∨ 16 ≤ j)
  · rw [h j h4.1 h4.2]
  · simp [h4]

theorem statusErrCode_setErrCode (w : Word) (code : Byte) : statusErrCode (setErrCode w code) = code := by
  apply BitVec.eq_of_getLsbD_eq
  intro j hj
  have h1 : 8 ≤ 8 + j ∧ 8 + j < 16 := by omega
  simp [-BitVec.getLsbD_eq_getElem, statusErrCode, BitVec.getLsbD_extractLsb', getLsbD_setErrCode, hj, h1]

/-! ### Acceptance (60_exceptions.md R260) -/

@[simp] theorem statusBusy_accepted (w : Word) : statusBusy (statusAccepted w) = true := by
  simp [-BitVec.getLsbD_eq_getElem, statusBusy, statusAccepted, getLsbD_setErrCode, getLsbD_setBit]
@[simp] theorem statusDone_accepted (w : Word) : statusDone (statusAccepted w) = false := by
  simp [-BitVec.getLsbD_eq_getElem, statusDone, statusAccepted, getLsbD_setErrCode, getLsbD_setBit]
@[simp] theorem statusErr_accepted (w : Word) : statusErr (statusAccepted w) = false := by
  simp [-BitVec.getLsbD_eq_getElem, statusErr, statusAccepted, getLsbD_setErrCode, getLsbD_setBit]
@[simp] theorem statusOverrun_accepted (w : Word) : statusOverrun (statusAccepted w) = false := by
  simp [-BitVec.getLsbD_eq_getElem, statusOverrun, statusAccepted, getLsbD_setErrCode, getLsbD_setBit]
@[simp] theorem statusErrCode_accepted (w : Word) : statusErrCode (statusAccepted w) = 0 :=
  statusErrCode_setErrCode _ _
@[simp] theorem statusReserved_accepted (w : Word) :
    statusAccepted w &&& statusReservedMask = w &&& statusReservedMask := by
  refine reserved_eq_of_bits _ _ fun j h4 h => ?_
  have h0 : j ≠ 0 := by omega
  have h1 : j ≠ 1 := by omega
  have h2 : j ≠ 2 := by omega
  have h3 : j ≠ 3 := by omega
  have h5 : ¬ (8 ≤ j ∧ j < 16) := by omega
  simp [-BitVec.getLsbD_eq_getElem, statusAccepted, getLsbD_setErrCode, getLsbD_setBit, h0, h1, h2, h3, h5]

/-! ### Successful completion (60_exceptions.md R258) -/

@[simp] theorem statusBusy_succeeded (w : Word) : statusBusy (statusSucceeded w) = false := by
  simp [-BitVec.getLsbD_eq_getElem, statusBusy, statusSucceeded, getLsbD_setErrCode, getLsbD_setBit]
@[simp] theorem statusDone_succeeded (w : Word) : statusDone (statusSucceeded w) = true := by
  simp [-BitVec.getLsbD_eq_getElem, statusDone, statusSucceeded, getLsbD_setErrCode, getLsbD_setBit]
@[simp] theorem statusErr_succeeded (w : Word) : statusErr (statusSucceeded w) = false := by
  simp [-BitVec.getLsbD_eq_getElem, statusErr, statusSucceeded, getLsbD_setErrCode, getLsbD_setBit]
@[simp] theorem statusOverrun_succeeded (w : Word) : statusOverrun (statusSucceeded w) = statusOverrun w := by
  simp [-BitVec.getLsbD_eq_getElem, statusOverrun, statusSucceeded, getLsbD_setErrCode, getLsbD_setBit]
@[simp] theorem statusErrCode_succeeded (w : Word) : statusErrCode (statusSucceeded w) = 0 :=
  statusErrCode_setErrCode _ _
@[simp] theorem statusReserved_succeeded (w : Word) :
    statusSucceeded w &&& statusReservedMask = w &&& statusReservedMask := by
  refine reserved_eq_of_bits _ _ fun j h4 h => ?_
  have h0 : j ≠ 0 := by omega
  have h1 : j ≠ 1 := by omega
  have h2 : j ≠ 2 := by omega
  have h5 : ¬ (8 ≤ j ∧ j < 16) := by omega
  simp [-BitVec.getLsbD_eq_getElem, statusSucceeded, getLsbD_setErrCode, getLsbD_setBit, h0, h1, h2, h5]

/-! ### Error completion (60_exceptions.md R259) -/

@[simp] theorem statusBusy_failed (code : ErrCode) (w : Word) : statusBusy (statusFailed code w) = false := by
  simp [-BitVec.getLsbD_eq_getElem, statusBusy, statusFailed, getLsbD_setErrCode, getLsbD_setBit]
@[simp] theorem statusDone_failed (code : ErrCode) (w : Word) : statusDone (statusFailed code w) = true := by
  simp [-BitVec.getLsbD_eq_getElem, statusDone, statusFailed, getLsbD_setErrCode, getLsbD_setBit]
@[simp] theorem statusErr_failed (code : ErrCode) (w : Word) : statusErr (statusFailed code w) = true := by
  simp [-BitVec.getLsbD_eq_getElem, statusErr, statusFailed, getLsbD_setErrCode, getLsbD_setBit]
@[simp] theorem statusOverrun_failed (code : ErrCode) (w : Word) :
    statusOverrun (statusFailed code w) = statusOverrun w := by
  simp [-BitVec.getLsbD_eq_getElem, statusOverrun, statusFailed, getLsbD_setErrCode, getLsbD_setBit]
@[simp] theorem statusErrCode_failed (code : ErrCode) (w : Word) :
    statusErrCode (statusFailed code w) = code.number := statusErrCode_setErrCode _ _
@[simp] theorem statusReserved_failed (code : ErrCode) (w : Word) :
    statusFailed code w &&& statusReservedMask = w &&& statusReservedMask := by
  refine reserved_eq_of_bits _ _ fun j h4 h => ?_
  have h0 : j ≠ 0 := by omega
  have h1 : j ≠ 1 := by omega
  have h2 : j ≠ 2 := by omega
  have h5 : ¬ (8 ≤ j ∧ j < 16) := by omega
  simp [-BitVec.getLsbD_eq_getElem, statusFailed, getLsbD_setErrCode, getLsbD_setBit, h0, h1, h2, h5]

/-! ### A dropped write (20_memory.md R70) -/

theorem getLsbD_statusOverran (w : Word) (j : Nat) :
    (statusOverran w).getLsbD j = if j = 3 then true else w.getLsbD j := getLsbD_setBit w 3 true j (by omega)

@[simp] theorem statusBusy_overran (w : Word) : statusBusy (statusOverran w) = statusBusy w := by
  simp [-BitVec.getLsbD_eq_getElem, statusBusy, getLsbD_statusOverran]
@[simp] theorem statusDone_overran (w : Word) : statusDone (statusOverran w) = statusDone w := by
  simp [-BitVec.getLsbD_eq_getElem, statusDone, getLsbD_statusOverran]
@[simp] theorem statusErr_overran (w : Word) : statusErr (statusOverran w) = statusErr w := by
  simp [-BitVec.getLsbD_eq_getElem, statusErr, getLsbD_statusOverran]
@[simp] theorem statusOverrun_overran (w : Word) : statusOverrun (statusOverran w) = true := by
  simp [-BitVec.getLsbD_eq_getElem, statusOverrun, getLsbD_statusOverran]
@[simp] theorem statusErrCode_overran (w : Word) : statusErrCode (statusOverran w) = statusErrCode w := by
  apply BitVec.eq_of_getLsbD_eq
  intro j hj
  have h : 8 + j ≠ 3 := by omega
  simp [-BitVec.getLsbD_eq_getElem, statusErrCode, BitVec.getLsbD_extractLsb', getLsbD_statusOverran, h]
@[simp] theorem statusReserved_overran (w : Word) :
    statusOverran w &&& statusReservedMask = w &&& statusReservedMask := by
  refine reserved_eq_of_bits _ _ fun j h4 h => ?_
  have h3 : j ≠ 3 := by omega
  simp [-BitVec.getLsbD_eq_getElem, getLsbD_statusOverran, h3]

end Sys2Proof.Machine
end

