-- ==== Sys2Proof/Laws/Ops.lean ====
section
/-! SUPPORT. One lemma for each shared operation of Machine/Ops.lean that says what it can do; later proofs cite it
instead of unfolding the operation. -/

namespace Sys2Proof.Machine

/-! ### The window -/

theorem regAt_offset (r : Reg) : regAt r.offset = some r := by
  have hprime : ∀ k : Fin 16, regAt (Reg.fbufPrime k).offset = some (.fbufPrime k) := by decide
  have hpower : ∀ k : Fin 16, regAt (Reg.fbufPower k).offset = some (.fbufPower k) := by decide
  cases r with
  | fbufPrime k => exact hprime k
  | fbufPower k => exact hpower k
  | _ => rfl

theorem offset_aligned (r : Reg) : r.offset % 8 = 0 ∧ r.offset < Config.windowBytes := by
  cases r with
  | fbufPrime k => simp only [Reg.offset, Config.windowBytes]; omega
  | fbufPower k => simp only [Reg.offset, Config.windowBytes]; omega
  | _ => decide

@[simp] theorem checkAccess_offset (r : Reg) : checkAccess r.offset 8 = .ok r := by
  obtain ⟨ha, hb⟩ := offset_aligned r
  simp [checkAccess, ha, Nat.not_le.mpr hb, regAt_offset]

/-- A read at a register's own offset reads that register. -/
theorem memRead_offset (s : State) (r : Reg) : s.memRead r.offset 8 = .ok (s.readReg r) := by
  simp [State.memRead]

/-- A permitted read is a read of one register. -/
theorem memRead_cases {s t : State} {off n : Nat} {v : Word} (h : s.memRead off n = .ok (v, t)) :
    ∃ r, checkAccess off n = .ok r ∧ s.readReg r = (v, t) := by
  unfold State.memRead at h
  split at h
  · next r hr => exact ⟨r, hr, by injection h⟩
  · cases h

/-- A refused read does not depend on the state. -/
theorem memRead_error {s : State} {off n : Nat} {f : Fault} :
    s.memRead off n = .error f ↔ checkAccess off n = .error f := by
  unfold State.memRead
  split <;> simp_all

/-- A read returns what the register holds, or is a draw: no register changes either way. -/
theorem readReg_cases (s : State) (r : Reg) :
    (∃ v, s.held r = some v ∧ s.readReg r = (v, s)) ∨
      s.readReg r = (r.shape (Config.freeWord s.draws), { s with draws := s.draws + 1 }) := by
  unfold State.readReg
  split
  · exact .inr rfl
  · split
    · next v hv => exact .inl ⟨v, hv, rfl⟩
    · exact .inr rfl

theorem readReg_of_held {s : State} {r : Reg} {v : Word} (hb : (s.seq.isBusy && r.isVolatile) = false)
    (hv : s.held r = some v) : s.readReg r = (v, s) := by
  simp [State.readReg, hb, hv]

theorem readReg_of_not_held {s : State} {r : Reg} (hv : s.held r = none) :
    s.readReg r = (r.shape (Config.freeWord s.draws), { s with draws := s.draws + 1 }) := by
  unfold State.readReg
  split
  · rfl
  · simp only [hv]; rfl

/-- After a read only the draw counter may differ. -/
theorem readReg_snd (s : State) (r : Reg) : ∃ n, (s.readReg r).2 = { s with draws := n } := by
  rcases readReg_cases s r with ⟨v, -, h⟩ | h
  · exact ⟨s.draws, by rw [h]⟩
  · exact ⟨s.draws + 1, by rw [h]⟩

/-- A write at a register's own offset. -/
theorem memWrite_offset (s : State) (r : Reg) (v : Word) :
    s.memWrite r.offset 8 v =
      if r.isReadOnly then .error .busReadOnly
      else if s.seq.isBusy then .ok { s with status := statusOverran s.status } else .ok (s.writeReg r v) := by
  simp [State.memWrite]

/-- What a write that is not refused does. -/
theorem memWrite_cases {s t : State} {off n : Nat} {v : Word} (h : s.memWrite off n v = .ok t) :
    ∃ r, checkAccess off n = .ok r ∧ r.isReadOnly = false ∧
      ((s.seq.isBusy = true ∧ t = { s with status := statusOverran s.status }) ∨
        (s.seq.isBusy = false ∧ t = s.writeReg r v)) := by
  unfold State.memWrite at h
  split at h
  · cases h
  · next r hr =>
    split at h
    · cases h
    · next hro =>
      refine ⟨r, hr, by simpa using hro, ?_⟩
      split at h
      · next hb => cases h; exact .inl ⟨hb, rfl⟩
      · next hb => cases h; exact .inr ⟨by simpa using hb, rfl⟩

/-- Whether a write is refused depends on its offset and width alone. -/
theorem memWrite_error {s s' : State} {off n : Nat} {v v' : Word} {f : Fault} (h : s.memWrite off n v = .error f) :
    s'.memWrite off n v' = .error f := by
  unfold State.memWrite at h ⊢
  cases hc : checkAccess off n with
  | error g => simpa [hc] using h
  | ok r =>
    simp only [hc] at h ⊢
    split at h
    · next hro => simpa [hro] using h
    · split at h <;> cases h

/-! ### The life cycle -/

/-- What the sampling of operands can do: only the draw counter moves. -/
theorem sampleOperands_snd (s : State) : ∃ n, s.sampleOperands.2 = { s with draws := n } := by
  obtain ⟨n1, h1⟩ := readReg_snd s .opa
  obtain ⟨n2, h2⟩ := readReg_snd (s.readReg .opa).2 .opb
  obtain ⟨n3, h3⟩ := readReg_snd ((s.readReg .opa).2.readReg .opb).2 .opc
  refine ⟨n3, ?_⟩
  change (((s.readReg .opa).2.readReg .opb).2.readReg .opc).2 = _
  rw [h3, h2, h1]

/-- Acceptance starts the decoded command; apart from `start`, only the draw counter moves. -/
theorem accept_eq (s : State) (w : Word) :
    ∃ n, s.accept w = ({ s with draws := n } : State).start (decodeCommand w) s.sampleOperands.1 := by
  obtain ⟨n, hn⟩ := sampleOperands_snd s
  exact ⟨n, by rw [State.accept, hn]⟩

/-- A state whose STATUS and SEQ are those of a successful completion. -/
theorem succeeded_of {s t : State} (hseq : t.seq = .idle) (hst : t.status = statusSucceeded s.status) :
    Succeeded s t := by
  constructor <;> simp [hseq, hst]

/-- A state whose STATUS and SEQ are those of an error completion. -/
theorem failed_of {code : ErrCode} {s t : State} (hseq : t.seq = .idle) (hst : t.status = statusFailed code s.status) :
    Failed code s t := by
  constructor <;> simp [hseq, hst]

/-- A command whose only result is RES0: the result, the completion and the frame. -/
theorem finishRes0_ok (s : State) (v : Word) :
    Succeeded s (s.finishRes0 (.ok v)) ∧ (s.finishRes0 (.ok v)).held .res0 = some v ∧
      SameRegsExcept [.res0, .status] s (s.finishRes0 (.ok v)) ∧ SameOutside s (s.finishRes0 (.ok v)) := by
  refine ⟨succeeded_of rfl rfl, rfl, fun r hr => ?_, ⟨rfl, rfl, rfl⟩⟩
  simp only [List.mem_cons, List.not_mem_nil, or_false, not_or] at hr
  simp [State.finishRes0, held_complete, held_setRes0, hr]

/-- An error completion and its frame (60_exceptions.md R259). -/
theorem completeError_spec (s : State) (code : ErrCode) :
    Failed code s (s.completeError code) ∧ SameRegsExcept [.status] s (s.completeError code) ∧
      SameOutside s (s.completeError code) := by
  refine ⟨failed_of rfl rfl, fun r hr => ?_, ⟨rfl, rfl, rfl⟩⟩
  simp only [List.mem_cons, List.not_mem_nil, or_false] at hr
  simp [held_completeError, hr]

end Sys2Proof.Machine
end

