-- ==== Sys2Proof/Laws/Factor.lean ====
section
/-! SUPPORT. What the shared operations of the factorization driver can do. -/

namespace Sys2Proof.Machine

/-- A rho call advances SEED by one generator step, whatever it finds. -/
@[simp] theorem rhoF_snd (m : Nat) (seed : Word) : (rhoF m seed).2 = xorshiftF seed := rfl

/-- EMIT appends one record and changes nothing else. -/
theorem emit_ok {q e : Nat} {d d' : Driver} (h : emit q e d = .ok d') :
    d.records.length < 15 ∧
      d' = { d with records := d.records ++ [{ prime := BitVec.ofNat 64 q, power := BitVec.ofNat 32 e }] } := by
  unfold emit at h
  split at h
  · cases h
  · next hlen => injection h with h; exact ⟨by omega, h.symm⟩

/-- EMIT fails only for want of room. -/
theorem emit_error {q e : Nat} {d : Driver} {stop : DriverStop} (h : emit q e d = .error stop) :
    15 ≤ d.records.length ∧ stop = .error .fbufOverflow d.seed := by
  unfold emit at h
  split at h
  · next hlen => injection h with h; exact ⟨hlen, h.symm⟩
  · cases h

/-- RHO_RETRY ends with a proper divisor candidate; it changes SEED, the failed calls and the budget only, and each
call takes one from the budget. -/
theorem rhoRetry_ok {limit m x : Nat} : ∀ {budget : Nat} {d d' : Driver}, rhoRetry limit m budget d = .ok (x, d') →
    x ≠ 1 ∧ x ≠ m ∧ d'.n = d.n ∧ d'.pow = d.pow ∧ d'.records = d.records ∧ d'.budget < budget
  | 0, d, d', h => by simp [rhoRetry] at h
  | budget + 1, d, d', h => by
    unfold rhoRetry at h
    simp only at h
    split at h
    · next hx =>
      injection h with h
      injection h with h1 h2
      subst h1 h2
      exact ⟨hx.1, hx.2, rfl, rfl, rfl, Nat.lt_succ_self _⟩
    · split at h
      · cases h
      · obtain ⟨h1, h2, h3, h4, h5, h6⟩ := rhoRetry_ok h
        exact ⟨h1, h2, h3, h4, h5, Nat.lt_succ_of_lt h6⟩

end Sys2Proof.Machine
end

