-- ==== Sys2Proof/Laws/HostAgent.lean ====
section
/-! SUPPORT. The host temporaries: read after write, and that a write keeps the canonical form. -/

namespace Sys2Proof.Machine

theorem getTemp_setTemp (t u : Nat) (v : Word) (l : List (Nat × Word)) :
    getTemp u (setTemp t v l) = if u = t then some v else getTemp u l := by
  induction l with
  | nil => by_cases h : u = t <;> simp [setTemp, getTemp, h]
  | cons p rest ih =>
    obtain ⟨k, w⟩ := p
    simp only [setTemp]
    split
    · simp only [getTemp]
    · split
      · next h1 h2 => subst h2; by_cases hu : u = t <;> simp [getTemp, hu]
      · next h1 h2 =>
        simp only [getTemp, ih]
        by_cases hk : u = k
        · simp [hk, Ne.symm h2]
        · simp [hk]

/-- The numbers in a list after a write are the old ones and the written one. -/
theorem mem_setTemp_keys {t k : Nat} {v : Word} {l : List (Nat × Word)}
    (h : k ∈ (setTemp t v l).map Prod.fst) : k = t ∨ k ∈ l.map Prod.fst := by
  induction l with
  | nil => simpa [setTemp] using h
  | cons p rest ih =>
    obtain ⟨u, w⟩ := p
    simp only [setTemp] at h
    split at h
    · simpa using h
    · split at h
      · next h2 => subst h2; simp only [List.map_cons, List.mem_cons] at h ⊢; tauto
      · simp only [List.map_cons, List.mem_cons] at h ⊢
        rcases h with h | h
        · exact .inr (.inl h)
        · rcases ih h with h | h
          · exact .inl h
          · exact .inr (.inr h)

/-- A write of a temporary keeps the canonical form (log 8). -/
theorem tempsRising_setTemp (t : Nat) (v : Word) (l : List (Nat × Word)) (h : tempsRising l = true) :
    tempsRising (setTemp t v l) = true := by
  simp only [tempsRising, decide_eq_true_eq] at h ⊢
  induction l with
  | nil => simp [setTemp]
  | cons p rest ih =>
    obtain ⟨u, w⟩ := p
    simp only [List.map_cons, List.pairwise_cons] at h
    simp only [setTemp]
    split
    · next h1 =>
      simp only [List.map_cons, List.pairwise_cons, List.mem_cons]
      refine ⟨?_, h⟩
      rintro k (rfl | hk)
      · exact h1
      · exact lt_trans h1 (h.1 k hk)
    · split
      · next h2 => subst h2; simpa using h
      · next h1 h2 =>
        simp only [List.map_cons, List.pairwise_cons]
        refine ⟨fun k hk => ?_, ih h.2⟩
        rcases mem_setTemp_keys hk with rfl | hk
        · omega
        · exact h.1 k hk

/-- Reading a temporary changes the draw counter at most. -/
theorem readTemp_snd (s : State) (t : Nat) : ∃ n, (s.readTemp t).2 = { s with draws := n } := by
  unfold State.readTemp
  split
  · exact ⟨s.draws, rfl⟩
  · exact ⟨s.draws + 1, rfl⟩

/-- A write to the window leaves the host agent alone. -/
theorem memWrite_host {s t : State} {off n : Nat} {v : Word} (h : s.memWrite off n v = .ok t) : t.host = s.host := by
  obtain ⟨r, -, -, ⟨-, rfl⟩ | ⟨-, rfl⟩⟩ := memWrite_cases h
  · rfl
  · cases r <;> try rfl
    obtain ⟨n, hn⟩ := accept_eq s v
    simp only [State.writeReg, hn]; rfl

/-- A read of the window leaves the host agent alone. -/
theorem memRead_host {s t : State} {off n : Nat} {v : Word} (h : s.memRead off n = .ok (v, t)) : t.host = s.host := by
  obtain ⟨r, -, hr⟩ := memRead_cases h
  obtain ⟨k, hk⟩ := readReg_snd s r
  rw [show t = (s.readReg r).2 by rw [hr], hk]

/-- What one line of the host program can do when it does not fault. -/
theorem hostLine_cases {s t : State} {op : HostOp} (h : s.hostLine op = .next t) :
    (∃ off n v s', s.memWrite off n v = .ok s' ∧ t = s'.nextLine ∧ op.writeTarget = some (off, n)) ∨
    (∃ off n k v s', s.memRead off n = .ok (v, s') ∧ t = s'.setTempNext k v ∧ op.readTarget = some (off, n)) ∨
    (∃ n line, t = ({ s with draws := n } : State).goTo line) ∨ t = s := by
  have hw : ∀ off n v, s.hostWrite off n v = .next t → ∃ s', s.memWrite off n v = .ok s' ∧ t = s'.nextLine := by
    intro off n v h
    unfold State.hostWrite at h
    split at h
    · next s' hs => exact ⟨s', hs, by injection h with h; exact h.symm⟩
    · cases h
  have hr : ∀ off n k, s.hostRead off n k = .next t →
      ∃ v s', s.memRead off n = .ok (v, s') ∧ t = s'.setTempNext k v := by
    intro off n k h
    unfold State.hostRead at h
    split at h
    · next v s' hs => exact ⟨v, s', hs, by injection h with h; exact h.symm⟩
    · cases h
  have hb : ∀ k bit target want, s.hostBranch k bit target want = t →
      ∃ n line, t = ({ s with draws := n } : State).goTo line := by
    intro k bit target want h
    obtain ⟨n, hn⟩ := readTemp_snd s k
    unfold State.hostBranch at h
    simp only [hn] at h
    split at h
    · exact ⟨n, target, h.symm⟩
    · exact ⟨n, _, h.symm⟩
  cases op with
  | wr r v => obtain ⟨s', h1, h2⟩ := hw _ _ _ h; exact .inl ⟨_, _, _, s', h1, h2, rfl⟩
  | cmd i => obtain ⟨s', h1, h2⟩ := hw _ _ _ h; exact .inl ⟨_, _, _, s', h1, h2, rfl⟩
  | memWrite off n v => obtain ⟨s', h1, h2⟩ := hw _ _ _ h; exact .inl ⟨_, _, _, s', h1, h2, rfl⟩
  | rd r k => obtain ⟨v, s', h1, h2⟩ := hr _ _ _ h; exact .inr (.inl ⟨_, _, k, v, s', h1, h2, rfl⟩)
  | memRead off n k => obtain ⟨v, s', h1, h2⟩ := hr _ _ _ h; exact .inr (.inl ⟨_, _, k, v, s', h1, h2, rfl⟩)
  | bnz k bit target => injection h with h; exact .inr (.inr (.inl (hb _ _ _ _ h)))
  | bz k bit target => injection h with h; exact .inr (.inr (.inl (hb _ _ _ _ h)))
  | halt => injection h with h; exact .inr (.inr (.inr h.symm))

end Sys2Proof.Machine
end

