-- ==== Sys2Proof/Laws/PerInstr.lean ====
section
/-! SUPPORT. Statements made per command, one lemma per constructor of Instr. -/

namespace Sys2Proof.Laws

/-- Family RoundTrip: the command is well formed, its word decodes to it and has the form CMDW (30_encoding.md R90,
R91), and so does the word through the bus's bytes (20_memory.md R65). -/
def RoundTrip.Statement (i : Instr) : Prop :=
  i.wellFormed = true ∧ decode (encode i) = .ok i ∧ wellFormedWord (encode i) = true ∧
    decodeBytes (busBytes (encode i)) = .ok (i, [])

theorem RoundTrip.mulmod : RoundTrip.Statement .mulmod := by unfold RoundTrip.Statement; decide
theorem RoundTrip.powmod : RoundTrip.Statement .powmod := by unfold RoundTrip.Statement; decide
theorem RoundTrip.isprime : RoundTrip.Statement .isprime := by unfold RoundTrip.Statement; decide
theorem RoundTrip.isqrt : RoundTrip.Statement .isqrt := by unfold RoundTrip.Statement; decide
theorem RoundTrip.sqpow : RoundTrip.Statement .sqpow := by unfold RoundTrip.Statement; decide
theorem RoundTrip.xshift : RoundTrip.Statement .xshift := by unfold RoundTrip.Statement; decide
theorem RoundTrip.gcd : RoundTrip.Statement .gcd := by unfold RoundTrip.Statement; decide
theorem RoundTrip.rho : RoundTrip.Statement .rho := by unfold RoundTrip.Statement; decide
theorem RoundTrip.factor : RoundTrip.Statement .factor := by unfold RoundTrip.Statement; decide

end Sys2Proof.Laws
end

