-- ==== Sys2Proof/Laws/Step.lean ====
section
/-! SUPPORT. What one step can do, said once. -/

namespace Sys2Proof.Machine

/-- Taking a turn off the schedule changes nothing else. -/
theorem nextTurn_snd (s : State) : ∃ l, s.nextTurn.2 = { s with turns := l } := by
  unfold State.nextTurn
  split
  · next rest _ => exact ⟨rest, rfl⟩
  · exact ⟨s.turns, rfl⟩

/-- Every command answers a next state. -/
theorem exec_next (i : Instr) (s : State) : ∃ t, exec i s = .next t := by
  cases i <;> exact ⟨_, rfl⟩

/-- The cases of a step that answers a next state: an illegal word's completion, a reset, a core turn with nothing to
do, a command's core turn, a host whose program has ended, or one line of the host program. `l` is the schedule after
the turn is taken. -/
theorem step_cases {s t : State} (h : step s = .next t) :
    (∃ ops, s.seq = .busy none ops ∧ t = s.completeError .illegalCmd) ∨
    ∃ l : List Turn, s.nextTurn.2 = { s with turns := l } ∧
      ((s.nextTurn.1 = .reset ∧ t = ({ s with turns := l } : State).assertReset) ∨
       (s.nextTurn.1 = .core ∧ s.seq = .idle ∧ t = { s with turns := l }) ∨
       (s.nextTurn.1 = .core ∧ ∃ i ops, Running i ops s ∧ exec i { s with turns := l } = .next t) ∨
       (s.nextTurn.1 = .host ∧ s.host.prog[s.host.line]? = none ∧ t = { s with turns := l }) ∨
       (s.nextTurn.1 = .host ∧ ∃ op, s.host.prog[s.host.line]? = some op ∧
         ({ s with turns := l } : State).hostLine op = .next t)) := by
  unfold step at h
  split at h
  · next ops hs => injection h with h; exact .inl ⟨ops, hs, h.symm⟩
  · next hs =>
    obtain ⟨l, hl⟩ := nextTurn_snd s
    refine .inr ⟨l, hl, ?_⟩
    rw [hl] at h
    unfold takeTurn at h
    split at h
    · next ht =>
      unfold hostStep at h
      split at h
      · next op hop => exact .inr (.inr (.inr (.inr ⟨ht, op, hop, h⟩)))
      · next hop => injection h with h; exact .inr (.inr (.inr (.inl ⟨ht, hop, h.symm⟩)))
    · next ht =>
      unfold coreStep at h
      split at h
      · next hq => injection h with h; exact .inr (.inl ⟨ht, hq, h.symm⟩)
      · next ops hq => exact absurd hq (hs ops)
      · next i ops hq => exact .inr (.inr (.inl ⟨ht, i, ops, hq, h⟩))
    · next ht => injection h with h; exact .inl ⟨ht, h.symm⟩

end Sys2Proof.Machine
end

