-- ==== Sys2Proof/Tests/Slice0.lean ====
section
/-! SUPPORT. Tests: expected values come from spec/95_test_vectors.md and the encodings of spec/30_encoding.md, and
each statement that has hypotheses has a witness that meets them. -/

namespace Sys2Proof.Tests

set_option Elab.async false

open Sys2Proof Sys2Proof.Machine

/-! ### Helpers -/

/-- The seed S of 95_test_vectors.md. -/
def seedS : Word := 0x0123456789ABCDEF#64

/-- A state in which the command `i` runs on the operands given, with SEED = S. -/
def running (i : Instr) (a b c : Word) : State :=
  { State.reset with status := 1, seq := .busy (some i) { a := a, b := b, c := c }, seed := seedS }

/-- The idle state with the three operands written and SEED = S. -/
def idleWith (a b c : Word) : State :=
  { State.reset with opa := a, opb := b, opc := c, seed := seedS
                     unspecified := { Unspecified.atReset with opa := false, opb := false, opc := false } }

/-- The idle state whose host has this program. -/
def withProgram (prog : List HostOp) : State := { idleWith 0 0 0 with host := { prog := prog, line := 0, temps := [] } }

/-- The outcome is a next state that passes the check. -/
def nextIs (o : Host.Outcome State Fault Refusal) (check : State → Bool) : Bool :=
  match o with
  | .next t => check t
  | .fault _ | .refused _ => false

/-- The outcome is this fault. -/
def faultIs (o : Host.Outcome State Fault Refusal) (f : Fault) : Bool :=
  match o with
  | .fault g => g == f
  | .next _ | .refused _ => false

/-- A record. -/
def record (q : Word) (e : Word32) : FactorRecord := { prime := q, power := e }

/-! ### Well-formedness: an ill-formed term for each check -/

theorem test_wf_reserved_bits_refused : wordReservedZero 0x0000000000000101#64 = false := by decide
theorem test_wf_top_reserved_bit_refused : wellFormedWord 0x8000000000000001#64 = false := by decide
theorem test_wf_opcode_zero_refused : wordOpcodeAssigned 0x0000000000000000#64 = false := by decide
theorem test_wf_opcode_0A_refused : wellFormedWord 0x000000000000000A#64 = false := by decide
theorem test_wf_opcode_09_accepted : wellFormedWord 0x0000000000000009#64 = true := by decide
theorem test_wf_branch_bit_64_refused : wellFormedProgram [.bnz 0 64 0] = false := by decide
theorem test_wf_branch_past_end_refused : wellFormedProgram [.bz 0 63 2] = false := by decide
theorem test_wf_wait_accepted : wellFormedProgram (waitLines 0 0) = true := by decide

/-! ### Decoding: words written from 30_encoding.md R90 and R92 (OPCODE in bits 7:0, RSVD in bits 63:8) -/

theorem test_decode_mulmod : decode (0#56 ++ 0b00000001#8) = .ok .mulmod := by decide
theorem test_decode_powmod : decode (0#56 ++ 0b00000010#8) = .ok .powmod := by decide
theorem test_decode_isprime : decode (0#56 ++ 0b00000011#8) = .ok .isprime := by decide
theorem test_decode_isqrt : decode (0#56 ++ 0b00000100#8) = .ok .isqrt := by decide
theorem test_decode_sqpow : decode (0#56 ++ 0b00000101#8) = .ok .sqpow := by decide
theorem test_decode_xshift : decode (0#56 ++ 0b00000110#8) = .ok .xshift := by decide
theorem test_decode_gcd : decode (0#56 ++ 0b00000111#8) = .ok .gcd := by decide
theorem test_decode_rho : decode (0#56 ++ 0b00001000#8) = .ok .rho := by decide
theorem test_decode_factor : decode (0#56 ++ 0b00001001#8) = .ok .factor := by decide
theorem test_decode_rsvd_bit_8 : decode (1#56 ++ 0b00001001#8) = .error .reservedBits := by decide
theorem test_decode_opcode_0A : decode (0#56 ++ 0b00001010#8) = .error .unassignedOpcode := by decide
theorem test_decode_bytes_factor : decodeBytes [0x09, 0, 0, 0, 0, 0, 0, 0, 0xFF] = .ok (.factor, [0xFF]) := by decide
theorem test_decode_bytes_too_short : decodeBytes [0x09, 0, 0, 0, 0, 0, 0] = .error .tooShort := by decide
theorem test_decode_table_word : decodeTableWord 64 0x0000000000000005 = some .sqpow := by decide

/-! ### Commands (95_test_vectors.md V1 to V9) -/

theorem test_mulmod_near_top :
    nextIs (exec .mulmod (running .mulmod (-1) (-1) (-2))) (fun t => t.res0 == 1 && t.status == 2) = true := by
  decide +kernel
theorem test_mulmod_zero_modulus :
    nextIs (exec .mulmod (running .mulmod 13 11 0)) (fun t => t.status == 0x206 && t.held .res0 == none) = true := by
  decide +kernel
theorem test_powmod_witness :
    nextIs (exec .powmod (running .powmod 2 713 1427)) (fun t => t.res0 == 1426 && t.status == 2) = true := by
  decide +kernel
theorem test_powmod_exponent_zero_modulus_one :
    nextIs (exec .powmod (running .powmod 5 0 1)) (fun t => t.res0 == 1) = true := by decide +kernel
theorem test_isprime_1427 :
    nextIs (exec .isprime (running .isprime 1427 0 0)) (fun t => t.res0 == 1 && t.status == 2) = true := by
  decide +kernel
theorem test_isprime_strong_pseudoprime :
    nextIs (exec .isprime (running .isprime 3215031751 0 0)) (fun t => t.res0 == 0) = true := by decide +kernel
theorem test_isqrt_below_square :
    nextIs (exec .isqrt (running .isqrt 18446744065119617024 0 0)) (fun t => t.res0 == 4294967294) = true := by
  decide +kernel
theorem test_isqrt_three : nextIs (exec .isqrt (running .isqrt 3 0 0)) (fun t => t.res0 == 1) = true := by
  decide +kernel
theorem test_sqpow_wraps :
    nextIs (exec .sqpow (running .sqpow 16 0x80000000 0))
      (fun t => t.res0 == 2 && t.res1 == 0 && t.res2 == 2) = true := by decide +kernel
theorem test_sqpow_reduced_still_wide :
    nextIs (exec .sqpow (running .sqpow 18446744065119617025 1 0))
      (fun t => t.res0 == 4294967295 && t.res1 == 2 && t.res2 == 65522) = true := by decide +kernel
theorem test_xshift :
    nextIs (exec .xshift (running .xshift 0 0 0))
      (fun t => t.seed == 0x3F2800D6569E01B4#64 && t.res0 == 0x3F2800D6569E01B4#64) = true := by decide +kernel
theorem test_gcd : nextIs (exec .gcd (running .gcd (-1) 0xFFFFFFFF 0)) (fun t => t.res0 == 4294967295) = true := by
  decide +kernel
theorem test_gcd_zero : nextIs (exec .gcd (running .gcd 0 0 0)) (fun t => t.res0 == 0 && t.status == 2) = true := by
  decide +kernel
theorem test_rho :
    nextIs (exec .rho (running .rho 8051 0 0)) (fun t => t.res0 == 97 && t.seed == 0x3F2800D6569E01B4#64) = true := by
  decide +kernel
theorem test_rho_zero :
    nextIs (exec .rho (running .rho 0 0 0)) (fun t => t.status == 0x206 && t.seed == seedS) = true := by
  decide +kernel
theorem test_factor_12 :
    nextIs (exec .factor (running .factor 12 0 0)) (fun t => t.res0 == 2 && t.fbuf[0] == record 2 2 &&
      t.fbuf[1] == record 3 1 && t.fbuf[2] == record 0 0 && t.held (.fbufPrime 3) == none) = true := by
  decide +kernel
/-- The steps 4 and 5 of 44_factorization.md R221: the repeated prime, by one rho call from SEED = S. -/
theorem test_factor_repeated_prime :
    ((rhoStage 0 2 { n := 281487861809153, pow := 1, records := [], seed := seedS, fails := 0, budget := 1 }).bind
        finalResidual).toOption.map (fun d => (d.records, d.seed)) =
      some ([record 65537 2, record 65537 1], 0x3F2800D6569E01B4#64) := by decide +kernel
/-- The document's example of 44_factorization.md R220. -/
theorem test_factor_600851475143 :
    nextIs (exec .factor (running .factor 600851475143 0 0)) (fun t => t.res0 == 4 && t.fbuf[0] == record 71 1 &&
      t.fbuf[1] == record 839 1 && t.fbuf[2] == record 1471 1 && t.fbuf[3] == record 6857 1) = true := by
  decide +kernel

/-! ### The interface (95_test_vectors.md V10, V11): one step each -/

theorem test_accept_sets_busy :
    nextIs (step (withProgram [.cmd .factor])) (fun t => t.status == 1 && t.seq == .busy (some .factor) ⟨0, 0, 0⟩) =
      true := by decide +kernel
theorem test_illegal_word_completes :
    nextIs (step { running .factor 0 0 0 with seq := .busy none ⟨0, 0, 0⟩, turns := [.host] })
      (fun t => t.status == 0x106 && t.seq == .idle) = true := by decide +kernel
theorem test_write_while_running_is_dropped :
    nextIs (step { running .factor 0 0 0 with turns := [.host], host := ⟨[.wr .opa 5], 0, []⟩ })
      (fun t => t.status == 9 && t.opa == 0) = true := by decide +kernel
theorem test_completion_after_overrun :
    nextIs (exec .mulmod { running .mulmod 3 4 5 with status := 9 }) (fun t => t.status == 0xA && t.res0 == 2) =
      true := by decide +kernel
theorem test_write_res0_faults : faultIs (step (withProgram [.wr .res0 1])) .busReadOnly = true := by decide +kernel
theorem test_read_reserved_faults : faultIs (step (withProgram [.memRead 0x048 8 0])) .busReserved = true := by
  decide +kernel
theorem test_read_misaligned_faults : faultIs (step (withProgram [.memRead 0x004 8 0])) .busMisaligned = true := by
  decide +kernel
theorem test_narrow_access_faults : faultIs (step (withProgram [.memWrite 0x010 4 0])) .busWidth = true := by
  decide +kernel
theorem test_outside_window_faults : faultIs (step (withProgram [.memRead 0x200 8 0])) .busOutsideWindow = true := by
  decide +kernel
theorem test_reset_abandons_factor :
    nextIs (step { running .factor 12 0 0 with turns := [.reset] }) (fun t => t.status == 0 && t.seq == .idle) =
      true := by decide +kernel
theorem test_placed_word_runs :
    nextIs (step ((idleWith 13 11 7).withFetchWord 64 1)) (fun t => t.res0 == 3 && t.status == 2) = true := by
  decide +kernel

/-! ### Witnesses: states and operands that meet the hypotheses of the statements -/

theorem witness_running (i : Instr) (a b c : Word) : Running i { a := a, b := b, c := c } (running i a b c) := rfl

theorem witness_CoreTurnRunsTheCommand :
    Running .gcd ⟨12, 18, 0⟩ { running .gcd 12 18 0 with turns := [.core] } ∧
      ({ running .gcd 12 18 0 with turns := [.core] } : State).turns = .core :: [] ∧
      Running .gcd ⟨12, 18, 0⟩ (running .gcd 12 18 0) ∧ (running .gcd 12 18 0).turns = [] := ⟨rfl, rfl, rfl, rfl⟩

theorem witness_PlacedWordRunsNext :
    decodeTableWord 64 0x01 = some .mulmod ∧ decodeTableWord 64 0x09 = some .factor := by decide

theorem witness_OnlyRefusedAccessesFault :
    step (withProgram [.memRead 0x1F8 8 0]) = .fault .busReserved ∧
      step (withProgram [.memWrite 0x008 8 0]) = .fault .busReadOnly := ⟨rfl, rfl⟩

theorem witness_IdleCoreHoldsItsState :
    ({ State.reset with turns := [.core] } : State).seq = .idle ∧
      State.reset.host.prog.length ≤ State.reset.host.line ∧ State.reset.turns = [] ∧
      (withProgram [.halt]).host.prog[(withProgram [.halt]).host.line]? = some .halt ∧
      ({ running .gcd 1 2 0 with turns := [.host], host := ⟨[.rd .opa 0], 0, []⟩ } : State).nextTurn.1 = .host ∧
      (HostOp.rd .opa 0).writeTarget = none ∧ (HostOp.bnz 0 0 0).writeTarget = none ∧
      ∃ t, step { running .gcd 1 2 0 with turns := [.host], host := ⟨[.rd .opa 0], 0, []⟩ } = .next t :=
  ⟨rfl, Nat.le_refl _, rfl, rfl, rfl, rfl, rfl, _, rfl⟩

theorem witness_WindowMapIsExact : 0x178 < 0x200 ∧ 0x178 % 8 = 0 ∧ regAt 0x178 = some (.fbufPower 15) ∧
    regAt 0x180 = none ∧ regAt 0x078 = none ∧ regAt 0x040 = some .seed := by decide

/-- Each kind of bus error at its boundary, and the accesses next to it that pass. -/
theorem witness_BusErrorsAreExactlyThese :
    faultIs (step (withProgram [.memRead 0x078 8 0])) .busReserved = true ∧
      faultIs (step (withProgram [.memRead 0x180 8 0])) .busReserved = true ∧
      faultIs (step (withProgram [.memWrite 0x038 8 0])) .busReadOnly = true ∧
      faultIs (step (withProgram [.memWrite 0x178 8 0])) .busReadOnly = true ∧
      nextIs (step (withProgram [.memRead 0x040 8 0])) (fun _ => true) = true ∧
      nextIs (step (withProgram [.memWrite 0x040 8 0])) (fun _ => true) = true ∧
      nextIs (step (withProgram [.memRead 0x080 8 0])) (fun _ => true) = true := by decide +kernel

theorem witness_ReservedAndReadOnlyAccessesRefused :
    (0x048 % 8 = 0 ∧ 0x048 ≤ 0x048 ∧ 0x048 ≤ 0x07F) ∧ 0x1F8 % 8 = 0 ∧ 0x180 ≤ 0x1F8 ∧ 0x1F8 ≤ 0x1FF := by decide

theorem witness_UnspecifiedReadIsADraw :
    State.reset.held .res0 = none ∧ State.reset.held (.fbufPower 15) = none ∧
      (running .gcd 1 2 0).seq.isBusy = true ∧ (running .gcd 1 2 0).held .opc = none := ⟨rfl, rfl, rfl, rfl⟩

theorem witness_ReadsWhileBusyAndAfter :
    ((idleWith 1 2 3).seq = .idle ∧ (idleWith 1 2 3).held .opc = some 3) ∧
      (running .rho 1 0 0).seq.isBusy = true ∧
      ({ idleWith 1 2 3 with seq := .busy (some .rho) ⟨1, 2, 3⟩ } : State).held .opa = some 1 := ⟨⟨rfl, rfl⟩, rfl, rfl⟩

theorem witness_ReadsLeaveTheCoreUnchanged : ∃ v t, State.reset.memRead 0x028 8 = .ok (v, t) := ⟨_, _, rfl⟩

theorem witness_IdleWriteStores : State.reset.seq = .idle ∧ Reg.seed.offset = 0x040 := ⟨rfl, rfl⟩

theorem witness_BusyWriteIsDropped : (running .factor 12 0 0).seq.isBusy = true ∧
    Reg.status ∉ [Reg.cmd, .opa, .opb, .opc, .seed] := by decide +kernel

theorem witness_CommandWriteIsAccepted : State.reset.seq = .idle ∧ (idleWith 1 2 3).seq = .idle ∧
    State.reset.held .opa = none ∧ (idleWith 1 2 3).held .opa = some 1 := ⟨rfl, rfl, rfl, rfl⟩

theorem witness_IllegalWordCompletesAtOnce : State.reset.seq = .idle ∧ (0x101#64).toNat / 256 ≠ 0 ∧
    (0x00#64).toNat % 256 = 0 ∧ 0x0A ≤ (0x0A#64).toNat % 256 := by decide +kernel

/-- A running state that meets the invariant. -/
theorem running_meets_invariant (cmd : Option Instr) (a b c : Word) (turns : List Turn) :
    MachineInv { idleWith a b c with status := 1, seq := .busy cmd ⟨a, b, c⟩, turns := turns } :=
  { busy := (by decide : statusBusy 1 = true)
    reserved := (by decide : (1 : Word) &&& statusReservedMask = 0)
    running := fun _ => (by decide : statusDone 1 = false ∧ statusErr 1 = false ∧ statusErrCode 1 = 0)
    resting := fun h => Bool.noConfusion (h : true = false)
    noError := fun _ => (by decide : statusErrCode 1 = 0)
    someError := fun h => absurd (h : statusErr 1 = true) (by decide : ¬ statusErr 1 = true)
    sampled := fun cmd ops h => by cases h; exact ⟨fun _ => rfl, fun _ => rfl, fun _ => rfl⟩
    waits := fun h => absurd rfl h
    temps := rfl }

/-- The invariant's states in which each kind of completion is the next step; the ILLEGAL one also before a host turn
and a reset turn. -/
theorem witness_StatusWordsAtCompletion :
    (∃ s t, MachineInv s ∧ step s = .next t ∧ s.nextTurn.1 = .core ∧ Running .gcd ⟨1, 2, 3⟩ s ∧ t.seq = .idle) ∧
    (∀ turn, ∃ s t ops, MachineInv s ∧ step s = .next t ∧ s.seq = .busy none ops ∧ s.nextTurn.1 = turn) ∧
    (∃ s t, MachineInv s ∧ step s = .next t ∧ s.nextTurn.1 = .core ∧ Running .mulmod ⟨1, 2, 0⟩ s) ∧
    ∃ s t d, MachineInv s ∧ step s = .next t ∧ s.nextTurn.1 = .core ∧ Running .factor ⟨12, 2, 3⟩ s ∧
      factorF Config.rhoRetryLimit s.rhoBudget 12 s.seed = .ok d ∧ t.seq = .idle :=
  ⟨⟨_, _, running_meets_invariant (some .gcd) 1 2 3 [], rfl, rfl, rfl, rfl⟩,
    fun turn => ⟨_, _, _, running_meets_invariant none 1 2 3 [turn], rfl, rfl, rfl⟩,
    ⟨_, _, running_meets_invariant (some .mulmod) 1 2 0 [], rfl, rfl, rfl⟩,
    ⟨_, _, _, running_meets_invariant (some .factor) 12 2 3 [], rfl, rfl, rfl, rfl, rfl⟩⟩

theorem witness_StepKeepsInvariant : ∃ s t, MachineInv s ∧ step s = .next t :=
  ⟨_, _, running_meets_invariant (some .gcd) 1 2 3 [], rfl⟩

theorem witness_ZeroModulusRaisesModZero :
    Running .mulmod ⟨1, 1, 0⟩ (running .mulmod 1 1 0) ∧ Running .powmod ⟨1, 0, 0⟩ (running .powmod 1 0 0) ∧
      Running .rho ⟨0, 1, 1⟩ (running .rho 0 1 1) ∧
      ∃ t, exec .mulmod (running .mulmod 1 1 0) = .next t ∧ Failed .modZero (running .mulmod 1 1 0) t :=
  ⟨rfl, rfl, rfl, _, rfl, failed_of rfl rfl⟩

theorem witness_EveryCommandButFactorCompletes :
    Running .isqrt ⟨-1, 0, 0⟩ (running .isqrt (-1) 0 0) ∧ Instr.isqrt ≠ .factor := ⟨rfl, by decide⟩

/-- The running states the result statements are about, at the boundaries of their operands. -/
theorem witness_results :
    Running .mulmod ⟨-1, -1, 1⟩ (running .mulmod (-1) (-1) 1) ∧ (1 : Word) ≠ 0 ∧
      Running .mulmod ⟨1, 1, 0⟩ (running .mulmod 1 1 0) ∧
      Running .powmod ⟨0, 0, 1⟩ (running .powmod 0 0 1) ∧ Running .powmod ⟨2, 1, 1⟩ (running .powmod 2 1 1) ∧
      Running .isprime ⟨0, 0, 0⟩ (running .isprime 0 0 0) ∧ Running .isqrt ⟨3, 0, 0⟩ (running .isqrt 3 0 0) ∧
      Running .sqpow ⟨16, -1, 0⟩ (running .sqpow 16 (-1) 0) ∧ Running .xshift ⟨0, 0, 0⟩ (running .xshift 0 0 0) ∧
      Running .gcd ⟨0, 0, 0⟩ (running .gcd 0 0 0) ∧ Running .rho ⟨1, 0, 0⟩ (running .rho 1 0 0) :=
  ⟨rfl, by decide, rfl, rfl, rfl, rfl, rfl, rfl, rfl, rfl, rfl⟩

theorem witness_IsprimeAcceptsEveryPrime : 1427 < 2 ^ 64 ∧ Nat.Prime 1427 := by norm_num

theorem witness_IsprimeExactByTrialDivision : 1368 < 1369 ∧ 37 ∈ Config.bases ∧ 37 ∣ 1369 := by decide

theorem witness_XorshiftIsInjective : xorshiftF 0 = xorshiftF 0 ∧ xorshiftF 1 ≠ 0 := by decide +kernel

theorem witness_NarrowFactorCompletes :
    Running .factor ⟨0xFFFFFFFF, 0, 0⟩ (running .factor 0xFFFFFFFF 0 0) ∧ (0xFFFFFFFF#64).toNat ≤ 4294967295 ∧
      Running .factor ⟨0, 0, 0⟩ (running .factor 0 0 0) := ⟨rfl, by decide, rfl⟩

theorem witness_factorF_completes : ∃ d, factorF Config.rhoRetryLimit (running .factor 12 0 0).rhoBudget 12 seedS = .ok d ∧
    d.records = [record 2 2, record 3 1] := ⟨_, rfl, rfl⟩

theorem witness_NarrowFactorRecordsAscend : 12 ≤ 4294967295 ∧ ∃ d, factorF 0 0 12 seedS = .ok d := ⟨by decide, _, rfl⟩

theorem witness_FactorProductLaw : ∃ t, Running .factor ⟨12, 0, 0⟩ (running .factor 12 0 0) ∧ (12 : Word) ≠ 0 ∧
    exec .factor (running .factor 12 0 0) = .next t ∧ Succeeded (running .factor 12 0 0) t :=
  ⟨_, rfl, by decide, rfl, succeeded_of rfl rfl⟩

theorem witness_FactorNeverOverflows :
    15 ≤ (List.replicate 15 (record 3 1)).length ∧ (List.replicate 14 (record 3 1)).length < 15 ∧
      18446744073709551615 < 2 ^ 64 := by decide

theorem witness_FactorRecords : 12 < 2 ^ 64 ∧ ∃ d, factorF 0 0 12 seedS = .ok d ∧ record 3 1 ∈ d.records :=
  ⟨by decide, _, rfl, by decide +kernel⟩

theorem witness_FactorErrorLeavesResults : Running .factor ⟨-1, 0, 0⟩ (running .factor (-1) 0 0) := rfl

theorem witness_UnfinishedFactorStaysBusy : Running .factor ⟨-1, 0, 0⟩ (running .factor (-1) 0 0) := rfl

/-- 95_test_vectors.md V9 with RHO_RETRY_LIMIT = 1 and SEED = 0: one failed call, then RETRY_LIMIT. -/
theorem witness_FactorResultIgnoresBudget :
    (∃ d, factorF 1 0 12 0 = .ok d) ∧ factorF 1 1 4347151273 0 = .error (.error .retryLimit 0) ∧ 1 ≤ 2 :=
  ⟨⟨_, rfl⟩, by decide +kernel, by decide⟩

theorem witness_ZeroSeedFailureRepeats : (rhoF 2 0).1 = 2 := by decide +kernel

theorem witness_SomeFactorNeverCompletes : 0 < 1 := by decide

theorem witness_RetryLimitBoundsTheLoop : 0 < 1 ∧ 1 ≤ 1 := by decide

theorem witness_ResetAbandonsTheCommand :
    ({ running .factor 12 0 0 with turns := [.reset] } : State).turns = .reset :: [] ∧
      Running .factor ⟨12, 0, 0⟩ { running .factor 12 0 0 with turns := [.reset] } ∧
      ({ State.reset with turns := [.reset] } : State).seq = .idle ∧
      ∃ s ops, MachineInv s ∧ s.turns = .reset :: [] ∧ s.seq = .busy none ops :=
  ⟨rfl, rfl, rfl, _, _, running_meets_invariant none 1 2 3 [.reset], rfl, rfl⟩

theorem witness_StepKeepsFbufLegal : ∃ t, FbufLegal (running .gcd 1 2 0) ∧ step (running .gcd 1 2 0) = .next t :=
  ⟨_, by unfold FbufLegal; decide +kernel, rfl⟩

theorem witness_OnlyTheseChangeSeed : nextIs (step (running .xshift 0 0 0))
    (fun t => t.held .seed != (running .xshift 0 0 0).held .seed) = true := by decide +kernel

theorem witness_OnlyHostAndResetChangeOperands : nextIs (step (withProgram [.wr .opb 5]))
    (fun t => t.held .opb != (withProgram [.wr .opb 5]).held .opb) = true := by decide +kernel

theorem witness_OnlyTheseChangeResults :
    nextIs (step (running .sqpow 9 1 0)) (fun t => t.held .res1 != (running .sqpow 9 1 0).held .res1) = true ∧
    nextIs (step (running .factor 3 0 0))
      (fun t => t.held (.fbufPrime 1) != (running .factor 3 0 0).held (.fbufPrime 1)) = true ∧
    nextIs (step (running .gcd 9 1 0)) (fun t => t.held .res0 != (running .gcd 9 1 0).held .res0) = true := by
  decide +kernel

theorem witness_HostBranches : getTemp 3 [(3, (1 : Word))] = some 1 := by decide

theorem witness_HostLinesAreOneAccess : (∃ s', State.reset.memWrite 0x040 8 5 = .ok s') ∧
    State.reset.memWrite 0x028 8 5 = .error .busReadOnly ∧ (∃ v s', State.reset.memRead 0x040 8 = .ok (v, s')) ∧
    State.reset.memRead 0x048 8 = .error .busReserved := ⟨⟨_, rfl⟩, rfl, ⟨_, _, rfl⟩, rfl⟩

theorem witness_HostTurnRunsTheLine :
    (withProgram [.wr .opb 5]).host.prog[(withProgram [.wr .opb 5]).host.line]? = some (.wr .opb 5) ∧
      (withProgram [.wr .opb 5]).seq = .idle ∧ (withProgram [.wr .opb 5]).turns = [] := ⟨rfl, rfl, rfl⟩

/-- A number that each clause is about: 37 itself, 1, and 1427 (41_primality.md R145). -/
theorem witness_IsprimeFollowsItsSteps : 37 ∣ 37 ∧ ¬ 2 ∣ 1 ∧
    (∀ w ∈ [2, 3, 5, 7, 11, 13, 17, 19, 23, 29, 31, 37], ¬ w ∣ 1427) ∧ 1369 ≤ 1427 ∧ 1427 - 1 = 2 ^ 1 * 713 ∧
    713 % 2 = 1 := by decide

/-- The driver at the start of step 4, for the statements about the retry loop. -/
def retrying (seed : Word) : Driver := { n := 1, pow := 1, records := [], seed := seed, fails := 0, budget := 1 }

theorem witness_RhoRetryIsTheLoop :
    (∃ x d', rhoRetry 0 8051 1 (retrying seedS) = .ok (x, d')) ∧
      rhoRetry 1 2 1 (retrying 0) = .error (.error .retryLimit 0) ∧
      rhoRetry 0 2 1 (retrying 0) = .error .spent := ⟨⟨97, _, rfl⟩, by decide +kernel, by decide +kernel⟩

theorem witness_FactorCountsItsRhoCalls : 4347151273 < 2 ^ 64 ∧ (∃ d, factorF 1 0 12 0 = .ok d) ∧
    factorF 1 1 4347151273 0 = .error (.error .retryLimit 0) ∧ 0 < 1 ∧ 1 + 1 ≤ 2 :=
  ⟨by decide, ⟨_, rfl⟩, witness_FactorResultIgnoresBudget.2.1, by decide, by decide⟩

end Sys2Proof.Tests
end

section
/-! PROOFS of the statements about the state (10_state.md). What a draw looks like in a register, what a read of an
unspecified register returns, and the values after reset. -/

namespace Sys2Proof.Machine

/-! ### Draws in registers (10_state.md R42, R43) -/

/-- Outside the POWER words a draw appears as it is. -/
theorem shape_of_not_fbufPower {r : Reg} (h : ∀ k, r ≠ .fbufPower k) (v : Word) : r.shape v = v := by
  cases r with
  | fbufPower k => exact absurd rfl (h k)
  | _ => rfl

/-- A POWER word shows the low half of the draw. -/
@[simp] theorem toNat_shape_fbufPower (k : Fin 16) (v : Word) :
    ((Reg.fbufPower k).shape v).toNat = v.toNat % 2 ^ 32 := by
  simp only [Reg.shape, BitVec.toNat_setWidth, BitVec.extractLsb'_toNat, Nat.shiftRight_zero]
  omega

theorem memRead_offset_of_not_held {s : State} {r : Reg} (h : s.held r = none) :
    s.memRead r.offset 8 = .ok (r.shape (Config.freeWord s.draws), { s with draws := s.draws + 1 }) := by
  rw [memRead_offset, readReg_of_not_held h]

/-! ### The state after reset (10_state.md R42) -/

@[simp] theorem atReset_fbuf_getElem (k : Fin 16) : Unspecified.atReset.fbuf[k.val] = true := by
  simp [Unspecified.atReset]

/-- Only CMD, STATUS and SEED have a reset value. -/
theorem held_reset_eq_none {r : Reg} (hcmd : r ≠ .cmd) (hstatus : r ≠ .status) (hseed : r ≠ .seed) :
    State.reset.held r = none := by
  cases r with
  | cmd => exact absurd rfl hcmd
  | status => exact absurd rfl hstatus
  | seed => exact absurd rfl hseed
  | opa | opb | opc | res0 | res1 | res2 => rfl
  | fbufPrime k | fbufPower k => simp [State.held, State.reset]

/-- Settles O46: the three reset values hold by definition; every other register holds none, so its read is a draw in
the shape of that register. -/
theorem resetValues : Obligations.ResetValues := by
  refine ⟨rfl, rfl, rfl, rfl, fun r hcmd hstatus hseed => ?_⟩
  have hnone : State.reset.held r = none := held_reset_eq_none hcmd hstatus hseed
  refine ⟨hnone, _, _, memRead_offset_of_not_held hnone, fun hr => shape_of_not_fbufPower hr _, ?_⟩
  rintro k rfl
  rw [toNat_shape_fbufPower]
  exact Nat.mod_lt _ (by decide)

end Sys2Proof.Machine
end

section
/-! PROOFS of the statements about the register window (20_memory.md). Which accesses the bus refuses, what a
permitted read returns while idle and while BUSY, and what a permitted write does while BUSY. -/

namespace Sys2Proof.Machine

/-! ### Refused accesses (20_memory.md R64, R66) -/

/-- No register stands in the two reserved ranges. -/
theorem regAt_reserved {off : Nat} (h : (0x048 ≤ off ∧ off ≤ 0x07F) ∨ (0x180 ≤ off ∧ off ≤ 0x1FF)) :
    regAt off = none := by
  have hlow : ∀ k ≤ 0x040, off ≠ k := by omega
  have hfbuf : ¬ (0x080 ≤ off ∧ off < 0x180) := by omega
  simp [regAt, hlow, hfbuf]

theorem checkAccess_reserved {off : Nat} (halign : off % 8 = 0)
    (h : (0x048 ≤ off ∧ off ≤ 0x07F) ∨ (0x180 ≤ off ∧ off ≤ 0x1FF)) : checkAccess off 8 = .error .busReserved := by
  have hwindow : ¬ Config.windowBytes ≤ off := by simp only [Config.windowBytes]; omega
  simp [checkAccess, halign, hwindow, regAt_reserved h]

/-- A write that fails the checks of every access is refused with their fault. -/
theorem memWrite_of_checkAccess_error {off n : Nat} {f : Fault} (h : checkAccess off n = .error f) (s : State)
    (v : Word) : s.memWrite off n v = .error f := by
  simp [State.memWrite, h]

theorem isReadOnly_of_not_mem {r : Reg} (h : r ∉ [.cmd, .opa, .opb, .opc, .seed]) : r.isReadOnly = true := by
  cases r with
  | cmd | opa | opb | opc | seed => exact absurd (by decide) h
  | status | res0 | res1 | res2 | fbufPrime k | fbufPower k => rfl

/-- A read-only register refuses a write whether or not the core is BUSY. -/
theorem memWrite_offset_of_readOnly {r : Reg} (h : r.isReadOnly = true) (s : State) (v : Word) :
    s.memWrite r.offset 8 v = .error .busReadOnly := by
  rw [memWrite_offset, if_pos h]

/-! ### Permitted reads (20_memory.md R66, R69) -/

/-- A register that holds a value reads as it, unless a running command may write it. -/
theorem memRead_offset_of_held {s : State} {r : Reg} {v : Word} (hb : s.seq.isBusy = true → r.isVolatile = false)
    (hv : s.held r = some v) : s.memRead r.offset 8 = .ok (v, s) := by
  have hstable : (s.seq.isBusy && r.isVolatile) = false := by simpa using hb
  rw [memRead_offset, readReg_of_held hstable hv]

/-- While BUSY, a register that the running command may write reads as a draw, whatever it holds. -/
theorem memRead_offset_busy_volatile {s : State} {r : Reg} (hb : s.seq.isBusy = true) (hr : r.isVolatile = true) :
    s.memRead r.offset 8 = .ok (r.shape (Config.freeWord s.draws), { s with draws := s.draws + 1 }) := by
  rw [memRead_offset, State.readReg, if_pos (by rw [hb, hr]; rfl), State.drawReg, draw_fst, draw_snd]

/-- A read of CMD returns 0 with no effect, idle or BUSY. -/
theorem memRead_cmd (s : State) : s.memRead Reg.cmd.offset 8 = .ok (0, s) :=
  memRead_offset_of_held (fun _ => rfl) rfl

/-! ### Writes while BUSY (20_memory.md R70) -/

theorem held_withStatus (s : State) (w : Word) (r : Reg) :
    ({ s with status := w } : State).held r = if r = .status then some w else s.held r := by
  cases r <;> rfl

/-- A write that is not refused is dropped while BUSY: only STATUS changes. -/
theorem memWrite_offset_busy {s : State} {r : Reg} (hb : s.seq.isBusy = true) (hr : r.isReadOnly = false) (v : Word) :
    s.memWrite r.offset 8 v = .ok { s with status := statusOverran s.status } := by
  rw [memWrite_offset, if_neg (by simp [hr]), if_pos hb]

/-! ### The obligations -/

/-- Settles O16: the dropped write changes STATUS alone, and there bit 3 alone; the refusals are those of any access,
BUSY or not. -/
theorem busyWriteIsDropped : Obligations.BusyWriteIsDropped := by
  intro s r v hb hr
  have hwritable : r.isReadOnly = false := by rcases hr with rfl | rfl | rfl | rfl | rfl <;> rfl
  refine ⟨⟨_, memWrite_offset_busy hb hwritable v, statusOverrun_overran _, fun k hk => ?_, fun q hq => ?_,
    ⟨rfl, rfl, rfl⟩, rfl, rfl⟩, fun q hq => ?_, fun off halign hoff => ?_⟩
  · rw [getLsbD_statusOverran, if_neg hk]
  · rw [held_withStatus, if_neg (List.ne_of_not_mem_cons hq)]
  · exact memWrite_offset_of_readOnly (isReadOnly_of_not_mem hq) s v
  · exact memWrite_of_checkAccess_error (checkAccess_reserved halign hoff) s v

/-- Settles O11: a reserved offset fails the checks of every access, a read-only register fails the check of writes,
and CMD holds 0. -/
theorem reservedAndReadOnlyAccessesRefused : Obligations.ReservedAndReadOnlyAccessesRefused := by
  intro s v
  refine ⟨fun off halign hoff => ?_, fun r hr => ?_, memRead_cmd s⟩
  · have hcheck : checkAccess off 8 = .error .busReserved := checkAccess_reserved halign hoff
    exact ⟨memRead_error.mpr hcheck, memWrite_of_checkAccess_error hcheck s v⟩
  · have hro : r.isReadOnly = true := by
      rcases hr with rfl | rfl | rfl | rfl | ⟨k, rfl | rfl⟩ <;> rfl
    exact memWrite_offset_of_readOnly hro s v

/-- Settles O13: while idle every held value is read; while BUSY the registers split into those a command may write,
which are draws in the shape of the register, and the rest. -/
theorem readsWhileBusyAndAfter : Obligations.ReadsWhileBusyAndAfter := by
  refine ⟨fun s r v hidle hv => memRead_offset_of_held (by simp [hidle, Seq.isBusy]) hv, fun s hb => ?_⟩
  refine ⟨memRead_offset_of_held (fun _ => rfl) rfl, memRead_cmd s, fun r v hr hv => ?_, fun r hr => ?_, fun k =>
    ⟨_, memRead_offset_busy_volatile hb rfl, toNat_shape_fbufPower k _⟩⟩
  · have hstable : r.isVolatile = false := by rcases hr with rfl | rfl | rfl <;> rfl
    exact memRead_offset_of_held (fun _ => hstable) hv
  · have hvolatile : r.isVolatile = true := by rcases hr with rfl | rfl | rfl | rfl | ⟨k, rfl⟩ <;> rfl
    have hpower : ∀ k, r ≠ .fbufPower k := by rcases hr with rfl | rfl | rfl | rfl | ⟨k, rfl⟩ <;> simp
    rw [memRead_offset_busy_volatile hb hvolatile, shape_of_not_fbufPower hpower]

end Sys2Proof.Machine
end

section
/-! PROOFS of the statements about the command word (30_encoding.md). A word decodes to a command exactly when it is
the command's word, and it is ILLEGAL exactly when it is not one of the nine. -/

namespace Sys2Proof.Laws

/-! ### The two fields of a word (30_encoding.md R90) -/

@[simp] theorem toNat_cmdOpcode (w : Word) : (cmdOpcode w).toNat = w.toNat % 256 := by
  simp [cmdOpcode]

theorem cmdReserved_eq_zero_iff (w : Word) : cmdReserved w = 0 ↔ w.toNat / 256 = 0 := by
  have hfield : (cmdReserved w).toNat = w.toNat / 256 := by
    simp only [cmdReserved, BitVec.extractLsb'_toNat, Nat.shiftRight_eq_div_pow]
    omega
  rw [← hfield]
  exact BitVec.toNat_eq

/-! ### Words and commands (30_encoding.md R91, R92) -/

theorem decode_encode (i : Instr) : decode (encode i) = .ok i := by
  cases i <;> decide

theorem encode_of_decode {w : Word} {i : Instr} (h : decode w = .ok i) : encode i = w := by
  unfold decode at h
  split at h
  · cases h
  · next hreserved =>
    have hzero : w.toNat / 256 = 0 := (cmdReserved_eq_zero_iff w).mp (not_not.mp hreserved)
    have hword : w.toNat = (cmdOpcode w).toNat := by rw [toNat_cmdOpcode]; omega
    split at h <;> cases h
    all_goals
      next hopcode => exact BitVec.eq_of_toNat_eq (hword.trans hopcode).symm

theorem decode_eq_ok_iff (w : Word) (i : Instr) : decode w = .ok i ↔ w.toNat = (encode i).toNat := by
  constructor
  · intro h
    rw [encode_of_decode h]
  · intro h
    rw [BitVec.eq_of_toNat_eq h, decode_encode]

/-! ### The illegal words (30_encoding.md R95) -/

theorem exists_toNat_encode_iff (n : Nat) : (∃ i, n = (encode i).toNat) ↔ 1 ≤ n ∧ n ≤ 9 := by
  constructor
  · rintro ⟨i, rfl⟩
    cases i <;> decide
  · rintro ⟨hlow, hhigh⟩
    interval_cases n
    exacts [⟨.mulmod, rfl⟩, ⟨.powmod, rfl⟩, ⟨.isprime, rfl⟩, ⟨.isqrt, rfl⟩, ⟨.sqpow, rfl⟩, ⟨.xshift, rfl⟩, ⟨.gcd, rfl⟩,
      ⟨.rho, rfl⟩, ⟨.factor, rfl⟩]

theorem decodeCommand_eq_none_iff (w : Word) : decodeCommand w = none ↔ ¬ ∃ i, decode w = .ok i := by
  unfold decodeCommand
  cases decode w <;> simp [Except.toOption]

/-- Settles O2: each command has its one word; a word is ILLEGAL when it is no command's word, that is outside 1 to
9. -/
theorem everyWordIsOneCommandOrIllegal : Obligations.EveryWordIsOneCommandOrIllegal := by
  intro w
  have hillegal : decodeCommand w = none ↔ ¬ (1 ≤ w.toNat ∧ w.toNat ≤ 9) := by
    simp only [decodeCommand_eq_none_iff, decode_eq_ok_iff, exists_toNat_encode_iff]
  exact ⟨decode_eq_ok_iff w .mulmod, decode_eq_ok_iff w .powmod, decode_eq_ok_iff w .isprime,
    decode_eq_ok_iff w .isqrt, decode_eq_ok_iff w .sqpow, decode_eq_ok_iff w .xshift, decode_eq_ok_iff w .gcd,
    decode_eq_ok_iff w .rho, decode_eq_ok_iff w .factor, hillegal.trans (by omega)⟩

end Sys2Proof.Laws
end

section
/-! PROOFS of the statements about modular arithmetic (40_modular_arithmetic.md). The multiplier gives the remainder of
the full product, the exponentiator the remainder of the full power; the commands put these in RES0 unless the modulus
is 0. -/

namespace Sys2Proof.Machine

/-! ### MULMOD_F (40_modular_arithmetic.md R120, R124, R125) -/

/-- An addition preceded by its conditional subtraction is addition modulo `m`. -/
theorem ite_sub_eq_add_mod {x y m : Nat} (hx : x < m) (hy : y < m) :
    (if y ≥ m - x then y - (m - x) else x + y) = (x + y) % m := by
  split
  · next hwrap => rw [Nat.mod_eq_sub_mod (by omega), Nat.mod_eq_of_lt (by omega)]; omega
  · next hfits => exact (Nat.mod_eq_of_lt (by omega)).symm

/-- One pass of the multiplier: the low bit of `a` adds `d` to the sum, and `d` doubles. -/
theorem mulmodLoop_succ {m a res d : Nat} (passes : Nat) (ha : a ≠ 0) (hres : res < m) (hd : d < m) :
    mulmodLoop m (passes + 1) a res d =
      mulmodLoop m passes (a / 2) ((res + a % 2 * d) % m) ((d + d) % m) := by
  have hsum : (if a % 2 = 1 then (res + d) % m else res) = (res + a % 2 * d) % m := by
    rcases Nat.mod_two_eq_zero_or_one a with hbit | hbit <;> simp [hbit, Nat.mod_eq_of_lt hres]
  simp only [mulmodLoop, if_neg ha, ite_sub_eq_add_mod hres hd, ite_sub_eq_add_mod hd hd, hsum]

/-- The loop adds `a * d` to the sum, modulo `m`, when there is a pass for each bit of `a`. -/
theorem mulmodLoop_eq {m passes a res d : Nat} (ha : a < 2 ^ passes) (hres : res < m) (hd : d < m) :
    mulmodLoop m passes a res d = (res + a * d) % m := by
  induction passes generalizing a res d with
  | zero =>
    obtain rfl : a = 0 := by simpa using ha
    simp [mulmodLoop, Nat.mod_eq_of_lt hres]
  | succ passes ih =>
    by_cases h0 : a = 0
    · simp [mulmodLoop, h0, Nat.mod_eq_of_lt hres]
    · have hm : 0 < m := Nat.zero_lt_of_lt hd
      have hbits : res + a % 2 * d + a / 2 * (d + d) = res + a * d := by
        nth_rw 3 [← Nat.mod_add_div a 2]
        ring
      rw [mulmodLoop_succ passes h0 hres hd, ih (by omega) (Nat.mod_lt _ hm) (Nat.mod_lt _ hm), ← hbits]
      exact (Nat.mod_modEq _ m).add ((Nat.mod_modEq _ m).mul_left _)

theorem mulmodF_eq {a m : Nat} (ha : a < 2 ^ 64) (hm : 0 < m) (b : Nat) : mulmodF a b m = a * b % m := by
  rw [mulmodF, mulmodLoop_eq ha hm (Nat.mod_lt _ hm), Nat.zero_add, Nat.mul_mod_mod]

theorem mulmodF_lt {a m : Nat} (ha : a < 2 ^ 64) (hm : 0 < m) (b : Nat) : mulmodF a b m < m := by
  rw [mulmodF_eq ha hm]
  exact Nat.mod_lt _ hm

theorem mulmodF_modEq {a m : Nat} (ha : a < 2 ^ 64) (hm : 0 < m) (b : Nat) : mulmodF a b m ≡ a * b [MOD m] := by
  rw [mulmodF_eq ha hm]
  exact Nat.mod_modEq _ m

/-! ### POWMOD_F (40_modular_arithmetic.md R122) -/

@[simp] theorem powmodLoop_exponent_zero (m passes res sq : Nat) : powmodLoop m passes 0 res sq = res := by
  cases passes <;> simp [powmodLoop]

/-- What a pass of the exponentiator makes of the running product: the low bit of `e` multiplies it by `sq`. -/
theorem powmod_product {m res sq : Nat} (hm : 0 < m) (hm64 : m ≤ 2 ^ 64) (hres : res < 2 ^ 64) (e : Nat) :
    (if e % 2 = 1 then mulmodF res sq m else res) < 2 ^ 64 ∧
      (if e % 2 = 1 then mulmodF res sq m else res) ≡ res * sq ^ (e % 2) [MOD m] := by
  rcases Nat.mod_two_eq_zero_or_one e with hbit | hbit
  · simpa [hbit] using ⟨hres, Nat.ModEq.rfl⟩
  · have hlt : mulmodF res sq m < 2 ^ 64 := (mulmodF_lt hres hm sq).trans_le hm64
    simpa [hbit] using ⟨hlt, mulmodF_modEq hres hm sq⟩

/-- The loop multiplies `res` by `sq ^ e`, modulo `m`; only with exponent 0 is the answer not reduced. -/
theorem powmodLoop_eq {m passes e res sq : Nat} (hm : 0 < m) (hm64 : m ≤ 2 ^ 64) (he0 : e ≠ 0) (he : e < 2 ^ passes)
    (hres : res < 2 ^ 64) (hsq : sq < 2 ^ 64) : powmodLoop m passes e res sq = res * sq ^ e % m := by
  induction passes generalizing e res sq with
  | zero => omega
  | succ passes ih =>
    rw [powmodLoop, if_neg he0]
    by_cases hone : e = 1
    · subst hone
      simp [mulmodF_eq hres hm]
    · obtain ⟨hreslt, hproduct⟩ := powmod_product (sq := sq) hm hm64 hres e
      have hsqlt : mulmodF sq sq m < 2 ^ 64 := (mulmodF_lt hsq hm sq).trans_le hm64
      have hbits : res * sq ^ (e % 2) * (sq * sq) ^ (e / 2) = res * sq ^ e := by
        rw [← pow_two, ← pow_mul, mul_assoc, ← pow_add, Nat.mod_add_div]
      rw [ih (by omega) (by omega) hreslt hsqlt, ← hbits]
      exact hproduct.mul ((mulmodF_modEq hsq hm sq).pow _)

theorem powmodF_exponent_zero (n m : Nat) : powmodF n 0 m = 1 :=
  powmodLoop_exponent_zero m 64 1 (n % m)

theorem powmodF_eq {e m : Nat} (he0 : e ≠ 0) (he : e < 2 ^ 64) (hm : 0 < m) (hm64 : m ≤ 2 ^ 64) (n : Nat) :
    powmodF n e m = n ^ e % m := by
  have hbase : n % m < 2 ^ 64 := (Nat.mod_lt n hm).trans_le hm64
  rw [powmodF, powmodLoop_eq hm hm64 he0 he (by decide) hbase, one_mul, ← Nat.pow_mod]

/-! ### The commands -/

theorem Running.operands_eq {i : Instr} {ops : Operands} {s : State} (h : Running i ops s) : s.operands = ops := by
  rw [State.operands, h]

theorem exec_mulmod_of_running {ops : Operands} {s : State} (h : Running .mulmod ops s) :
    exec .mulmod s = .next (s.finishRes0 (checkModulus ops.c
      (BitVec.ofNat 64 (mulmodF ops.a.toNat ops.b.toNat ops.c.toNat)))) := by
  rw [← h.operands_eq]
  rfl

theorem exec_powmod_of_running {ops : Operands} {s : State} (h : Running .powmod ops s) :
    exec .powmod s = .next (s.finishRes0 (checkModulus ops.c
      (BitVec.ofNat 64 (powmodF ops.a.toNat ops.b.toNat ops.c.toNat)))) := by
  rw [← h.operands_eq]
  rfl

/-- The modulus check passes a modulus that is not 0: the command completes with its result. -/
theorem finishRes0_checkModulus_ne_zero {c : Word} (hc : c ≠ 0) (s : State) (v : Word) :
    s.finishRes0 (checkModulus c v) = s.finishRes0 (.ok v) := by
  rw [checkModulus, if_neg hc]

/-- The modulus check turns a modulus of 0 into MOD_ZERO, whatever the result would be. -/
theorem finishRes0_checkModulus_zero (s : State) (v : Word) :
    s.finishRes0 (checkModulus 0 v) = s.completeError .modZero := rfl

/-- Settles O22: MULMOD_F answers the remainder, which is below OPC and so fits in RES0. -/
theorem mulmodIsExact : Obligations.MulmodIsExact := by
  refine ⟨rfl, fun s ops hrun => ⟨fun hc => ?_, fun hc => ?_⟩⟩
  · have hpos : 0 < ops.c.toNat := BitVec.toNat_pos_of_ne_zero hc
    have hlt : mulmodF ops.a.toNat ops.b.toNat ops.c.toNat < 2 ^ 64 :=
      (mulmodF_lt ops.a.isLt hpos _).trans ops.c.isLt
    obtain ⟨hdone, hheld, hregs, houtside⟩ :=
      finishRes0_ok s (BitVec.ofNat 64 (mulmodF ops.a.toNat ops.b.toNat ops.c.toNat))
    refine ⟨_, _, by rw [exec_mulmod_of_running hrun, finishRes0_checkModulus_ne_zero hc], hdone, hheld, ?_, hregs,
      houtside⟩
    rw [BitVec.toNat_ofNat, Nat.mod_eq_of_lt hlt, mulmodF_eq ops.a.isLt hpos]
  · exact ⟨_, by rw [exec_mulmod_of_running hrun, hc, finishRes0_checkModulus_zero], completeError_spec s .modZero⟩

/-- Settles O23: exponent 0 never enters the loop, so RES0 is 1 unreduced; any other exponent gives the remainder of
the power, which fits in RES0. The modulus check comes before the exponent is looked at. -/
theorem powmodIsExact : Obligations.PowmodIsExact := by
  refine ⟨rfl, fun s ops hrun => ⟨fun hc => ?_, fun hc => ?_⟩⟩
  · have hpos : 0 < ops.c.toNat := BitVec.toNat_pos_of_ne_zero hc
    obtain ⟨hdone, hheld, hregs, houtside⟩ :=
      finishRes0_ok s (BitVec.ofNat 64 (powmodF ops.a.toNat ops.b.toNat ops.c.toNat))
    refine ⟨_, _, by rw [exec_powmod_of_running hrun, finishRes0_checkModulus_ne_zero hc], hdone, hheld,
      fun hb => ?_, fun hb => ?_, hregs, houtside⟩
    · rw [hb]
      exact congrArg (BitVec.ofNat 64) (powmodF_exponent_zero _ _)
    · have hexponent : ops.b.toNat ≠ 0 := (BitVec.toNat_pos_of_ne_zero hb).ne'
      have hlt : ops.a.toNat ^ ops.b.toNat % ops.c.toNat < 2 ^ 64 := (Nat.mod_lt _ hpos).trans ops.c.isLt
      rw [powmodF_eq hexponent ops.b.isLt hpos ops.c.isLt.le, BitVec.toNat_ofNat, Nat.mod_eq_of_lt hlt]
  · exact ⟨_, by rw [exec_powmod_of_running hrun, hc, finishRes0_checkModulus_zero], completeError_spec s .modZero⟩

end Sys2Proof.Machine
end

section
/-! PROOFS of the statements about the square root (42_square_root.md). The Newton iteration ends at the floor of the
square root; the reducer takes square roots until none is exact, at most five times on a 64-bit operand. -/

namespace Sys2Proof.Machine

/-! ### ISQRT_F (42_square_root.md R160, R162) -/

/-- The arithmetic-geometric mean inequality of R160: a Newton step never falls below the floor of the root. -/
theorem sqrt_le_newtonStep {x : Nat} (hx : 0 < x) (n : Nat) : Nat.sqrt n ≤ (x + n / x) / 2 := by
  have hmean : (2 * Nat.sqrt n - x) * x ≤ n := by
    rcases le_total (2 * Nat.sqrt n) x with hle | hle
    · simp [Nat.sub_eq_zero_of_le hle]
    · obtain ⟨k, hk⟩ := Nat.exists_eq_add_of_le' hle
      have hroot : Nat.sqrt n * Nat.sqrt n ≤ n := Nat.sqrt_le n
      have hprod : 4 * k * x ≤ (k + x) ^ 2 := four_mul_le_sq_add k x
      rw [hk, Nat.add_sub_cancel]
      rw [← hk] at hprod
      linarith
  have hquot : 2 * Nat.sqrt n - x ≤ n / x := (Nat.le_div_iff_mul_le hx).mpr hmean
  omega

/-- Where a Newton step does not fall, `x` is at most the floor of the root. -/
theorem le_sqrt_of_le_newtonStep {n x : Nat} (hx : 0 < x) (h : x ≤ (x + n / x) / 2) : x ≤ Nat.sqrt n := by
  have hquot : x ≤ n / x := by omega
  exact Nat.le_sqrt.mpr ((Nat.le_div_iff_mul_le hx).mp hquot)

/-- From above the root, with as many passes as `x`, the loop ends at the floor of the root. -/
theorem isqrtLoop_eq_sqrt {n passes x : Nat} (hn : 0 < n) (habove : Nat.sqrt n ≤ x) (hpasses : x ≤ passes) :
    isqrtLoop n passes x = Nat.sqrt n := by
  have hroot : 0 < Nat.sqrt n := Nat.sqrt_pos.mpr hn
  induction passes generalizing x with
  | zero => omega
  | succ passes ih =>
    have hx : 0 < x := hroot.trans_le habove
    simp only [isqrtLoop]
    split
    · next hstop => exact le_antisymm (le_sqrt_of_le_newtonStep hx hstop) habove
    · next hfalls => exact ih (sqrt_le_newtonStep hx n) (by omega)

/-- The start value n >> 1 is at or above the root. -/
theorem sqrt_le_half {n : Nat} (hn : 3 < n) : Nat.sqrt n ≤ n / 2 := by
  have hsquare : n < (n / 2 + 1) * (n / 2 + 1) := by
    have hhalf : n ≤ 2 * (n / 2) + 1 := by omega
    have hpos : 2 ≤ n / 2 := by omega
    nlinarith
  exact Nat.le_of_lt_succ (Nat.sqrt_lt.mpr hsquare)

/-- The square-root law (R162), by way of the library's floor root. -/
@[simp] theorem isqrtF_eq_sqrt (n : Nat) : isqrtF n = Nat.sqrt n := by
  unfold isqrtF
  split
  · next hsmall =>
    refine Nat.eq_sqrt.mpr ?_
    split <;> omega
  · next hlarge => exact isqrtLoop_eq_sqrt (by omega) (sqrt_le_half (by omega)) le_rfl

theorem sqrt_lt_two_pow {n k : Nat} (hn : n < 2 ^ (2 * k)) : Nat.sqrt n < 2 ^ k :=
  Nat.sqrt_lt.mpr (by rwa [← pow_add, ← two_mul])

/-! ### SQPOW_F (42_square_root.md R163) -/

/-- The loop's test is that `n` is a square above 1. -/
theorem sqpowLoop_test_iff (n : Nat) : (1 < n ∧ isqrtF n * isqrtF n = n) ↔ 1 < n ∧ IsSquare n := by
  rw [isqrtF_eq_sqrt, ← Nat.exists_mul_self, isSquare_iff_exists_mul_self]
  simp only [eq_comm]

/-- One pass on a square above 1: the root goes on, and pow doubles. -/
theorem sqpowLoop_succ_of_square {r : Nat} (hr : 1 < r) (passes pow : Nat) :
    sqpowLoop (passes + 1) (r * r) pow = sqpowLoop passes r (pow * 2 % 2 ^ 32) := by
  have htest : 1 < r * r := by nlinarith
  simp [sqpowLoop, htest]

/-- The loop ends on a number that is at most 1 or no square. -/
theorem sqpowLoop_of_reduced {n : Nat} (h : n ≤ 1 ∨ ¬ IsSquare n) (passes pow : Nat) :
    sqpowLoop passes n pow = (n, pow) := by
  cases passes with
  | zero => rfl
  | succ passes =>
    have htest : ¬ (1 < n ∧ IsSquare n) := by
      rintro ⟨hone, hsquare⟩
      exact h.elim hone.not_ge (fun hn => hn hsquare)
    rw [sqpowLoop, if_neg (mt (sqpowLoop_test_iff n).mp htest)]

/-- `j` square roots reduce `n` with multiplier `pow` to `n'` with multiplier `pow'`. -/
structure ReducedBy (j n pow n' pow' : Nat) : Prop where
  power : n = n' ^ 2 ^ j
  reduced : n' ≤ 1 ∨ ¬ IsSquare n'
  multiplier : pow' = pow * 2 ^ j % 2 ^ 32

/-- A number that is at most 1 or no square is reduced by no root at all. -/
theorem ReducedBy.refl {n pow : Nat} (h : n ≤ 1 ∨ ¬ IsSquare n) (hpow : pow < 2 ^ 32) :
    ReducedBy 0 n pow n pow where
  power := by simp
  reduced := h
  multiplier := by simpa using (Nat.mod_eq_of_lt hpow).symm

/-- A reduction of the root is a reduction of the square with one root more. -/
theorem ReducedBy.square {j r pow n' pow' : Nat} (h : ReducedBy j r (pow * 2 % 2 ^ 32) n' pow') :
    ReducedBy (j + 1) (r * r) pow n' pow' where
  power := by rw [pow_succ, pow_mul, ← h.power, pow_two]
  reduced := h.reduced
  multiplier := by rw [h.multiplier, Nat.mod_mul_mod, pow_succ' 2 j, mul_assoc]

/-- The loop reduces; a number above 1 and below 2^(2^passes) takes fewer roots than there are passes. -/
theorem exists_reducedBy_sqpowLoop {passes n pow : Nat} (hn : n < 2 ^ 2 ^ passes) (hpow : pow < 2 ^ 32) :
    ∃ j, (n ≤ 1 → j = 0) ∧ (1 < n → j < passes) ∧
      ReducedBy j n pow (sqpowLoop passes n pow).1 (sqpowLoop passes n pow).2 := by
  induction passes generalizing n pow with
  | zero =>
    have hone : n ≤ 1 := Nat.le_of_lt_succ hn
    exact ⟨0, fun _ => rfl, fun h => absurd h hone.not_gt, .refl (.inl hone) hpow⟩
  | succ passes ih =>
    by_cases hend : n ≤ 1 ∨ ¬ IsSquare n
    · rw [sqpowLoop_of_reduced hend]
      exact ⟨0, fun _ => rfl, fun _ => passes.succ_pos, .refl hend hpow⟩
    · obtain ⟨hone, r, rfl⟩ : 1 < n ∧ IsSquare n := by simpa using hend
      have hr : 1 < r := by nlinarith
      have hroot : r < 2 ^ 2 ^ passes := by
        rw [← Nat.sqrt_eq r]
        exact sqrt_lt_two_pow (by rwa [← pow_succ'])
      obtain ⟨j, -, hj, hreduced⟩ := ih hroot (Nat.mod_lt (pow * 2) (by decide))
      rw [sqpowLoop_succ_of_square hr]
      exact ⟨j + 1, fun h => absurd h hone.not_ge, fun _ => Nat.succ_lt_succ (hj hr), hreduced.square⟩

/-- On a 64-bit operand SQPOW_F takes at most five roots, and none when the operand is at most 1. -/
theorem exists_reducedBy_sqpowF {n pow : Nat} (hn : n < 2 ^ 64) (hpow : pow < 2 ^ 32) :
    ∃ j ≤ 5, (n ≤ 1 → j = 0) ∧ ReducedBy j n pow (sqpowF n pow).n (sqpowF n pow).pow := by
  obtain ⟨j, hzero, hlt, hreduced⟩ := exists_reducedBy_sqpowLoop (passes := 6) hn hpow
  exact ⟨j, by omega, hzero, hreduced⟩

theorem sqpowF_n_le {n pow : Nat} (hn : n < 2 ^ 64) (hpow : pow < 2 ^ 32) : (sqpowF n pow).n ≤ n := by
  obtain ⟨j, -, -, hreduced⟩ := exists_reducedBy_sqpowF hn hpow
  calc (sqpowF n pow).n ≤ (sqpowF n pow).n ^ 2 ^ j := Nat.le_self_pow (by positivity) _
    _ = n := hreduced.power.symm

theorem sqpowF_pow_lt {n pow : Nat} (hn : n < 2 ^ 64) (hpow : pow < 2 ^ 32) : (sqpowF n pow).pow < 2 ^ 32 := by
  obtain ⟨j, -, -, hreduced⟩ := exists_reducedBy_sqpowF hn hpow
  exact hreduced.multiplier.trans_lt (Nat.mod_lt _ (by decide))

@[simp] theorem sqpowF_bound (n pow : Nat) : (sqpowF n pow).bound = trialBound (sqpowF n pow).n := rfl

theorem trialBound_eq (n : Nat) : trialBound n = if n > 4293132484 then 65522 else Nat.sqrt n + 1 := by
  simp [trialBound, Config.trialCap]

theorem trialBound_le (n : Nat) : trialBound n ≤ 65523 := by
  rw [trialBound_eq]
  split
  · decide
  · next hsmall => exact Nat.succ_le_succ (Nat.le_of_lt_succ (Nat.sqrt_lt.mpr (by omega)))

/-! ### The commands -/

/-- A number of 64 bits stands in a register as it is. -/
theorem toNat_ofNat_of_lt {n : Nat} (hn : n < 2 ^ 64) : (BitVec.ofNat 64 n).toNat = n := by
  rw [BitVec.toNat_ofNat, Nat.mod_eq_of_lt hn]

theorem exec_isqrt_of_running {ops : Operands} {s : State} (h : Running .isqrt ops s) :
    exec .isqrt s = .next (s.finishRes0 (.ok (BitVec.ofNat 64 (isqrtF ops.a.toNat)))) := by
  rw [← h.operands_eq]
  rfl

/-- Completion of a command with three results. -/
def State.finishResults (s : State) (v0 v1 v2 : Word) : State :=
  (((s.setRes0 v0).setRes1 v1).setRes2 v2).complete

/-- A command with three results: the results, the completion and the frame. -/
theorem finishResults_spec (s : State) (v0 v1 v2 : Word) :
    Succeeded s (s.finishResults v0 v1 v2) ∧ (s.finishResults v0 v1 v2).held .res0 = some v0 ∧
      (s.finishResults v0 v1 v2).held .res1 = some v1 ∧ (s.finishResults v0 v1 v2).held .res2 = some v2 ∧
      SameRegsExcept [.res0, .res1, .res2, .status] s (s.finishResults v0 v1 v2) ∧
      SameOutside s (s.finishResults v0 v1 v2) := by
  refine ⟨succeeded_of rfl rfl, rfl, rfl, rfl, fun r hr => ?_, ⟨rfl, rfl, rfl⟩⟩
  simp only [List.mem_cons, List.not_mem_nil, or_false, not_or] at hr
  simp [State.finishResults, held_complete, held_setRes0, held_setRes1, held_setRes2, hr]

theorem exec_sqpow_of_running {ops : Operands} {s : State} (h : Running .sqpow ops s) :
    exec .sqpow s = .next (s.finishResults (BitVec.ofNat 64 (sqpowF ops.a.toNat ops.pow.toNat).n)
      (BitVec.ofNat 64 (sqpowF ops.a.toNat ops.pow.toNat).pow)
      (BitVec.ofNat 64 (sqpowF ops.a.toNat ops.pow.toNat).bound)) := by
  rw [← h.operands_eq]
  rfl

@[simp] theorem Operands.toNat_pow (ops : Operands) : ops.pow.toNat = ops.b.toNat % 2 ^ 32 := by
  simp [Operands.pow]

/-- Settles O27: ISQRT_F is the floor root, which is below 2^32 and so fits in RES0. -/
theorem isqrtIsTheFloorRoot : Obligations.IsqrtIsTheFloorRoot := by
  refine ⟨rfl, fun s ops hrun => ?_⟩
  have hroot : Nat.sqrt ops.a.toNat < 2 ^ 32 := sqrt_lt_two_pow ops.a.isLt
  have hvalue : (BitVec.ofNat 64 (isqrtF ops.a.toNat)).toNat = Nat.sqrt ops.a.toNat := by
    rw [isqrtF_eq_sqrt, toNat_ofNat_of_lt (by omega)]
  obtain ⟨hdone, hheld, hregs, houtside⟩ := finishRes0_ok s (BitVec.ofNat 64 (isqrtF ops.a.toNat))
  refine ⟨_, _, exec_isqrt_of_running hrun, hdone, hheld, ?_, ?_, ?_, hregs, houtside⟩
  · rw [hvalue]
    exact Nat.sqrt_le _
  · rw [hvalue]
    exact Nat.lt_succ_sqrt _
  · rw [hvalue]
    omega

/-- Settles O28: the roots SQPOW_F takes give `j`; the reduced n, the multiplier and the bound all fit in their
registers. -/
theorem sqpowStripsSquares : Obligations.SqpowStripsSquares := by
  refine ⟨rfl, fun s ops hrun => ?_⟩
  have hpow : ops.pow.toNat < 2 ^ 32 := ops.pow.isLt
  obtain ⟨j, hj, hzero, hpower, hend, hmultiplier⟩ := exists_reducedBy_sqpowF ops.a.isLt hpow
  have hnfits := (sqpowF_n_le ops.a.isLt hpow).trans_lt ops.a.isLt
  have hpfits : (sqpowF ops.a.toNat ops.pow.toNat).pow < 2 ^ 64 := (sqpowF_pow_lt ops.a.isLt hpow).trans (by decide)
  have hbfits : (sqpowF ops.a.toNat ops.pow.toNat).bound < 2 ^ 64 := (trialBound_le _).trans_lt (by decide)
  obtain ⟨hdone, hres0, hres1, hres2, hregs, houtside⟩ := finishResults_spec s _ _ _
  refine ⟨_, _, _, _, j, exec_sqpow_of_running hrun, hdone, hres0, hres1, hres2, hj, hzero, ?_, ?_, ?_, ?_, hregs,
    houtside⟩
  · rwa [toNat_ofNat_of_lt hnfits]
  · rwa [toNat_ofNat_of_lt hnfits]
  · rw [toNat_ofNat_of_lt hpfits, hmultiplier, Operands.toNat_pow]
  · rw [toNat_ofNat_of_lt hbfits, toNat_ofNat_of_lt hnfits, sqpowF_bound, trialBound_eq]

end Sys2Proof.Machine
end

section
/-! PROOFS of the statements about GCD and XSHIFT (43_pollard_rho.md). Euclid's loop answers the greatest common
divisor; the xorshift word goes to SEED and RES0. -/

namespace Sys2Proof.Machine

/-! ### GCD_F (43_pollard_rho.md R182) -/

/-- Each pass keeps the greatest common divisor, and `b` passes are enough because `b` falls at each. -/
theorem gcdLoop_eq_gcd {passes a b : Nat} (hpasses : b ≤ passes) : gcdLoop passes a b = Nat.gcd a b := by
  induction passes generalizing a b with
  | zero =>
    obtain rfl : b = 0 := Nat.le_zero.mp hpasses
    exact (Nat.gcd_zero_right a).symm
  | succ passes ih =>
    rw [gcdLoop]
    split
    · next hzero => rw [hzero, Nat.gcd_zero_right]
    · next hb =>
      have hfalls : a % b < b := Nat.mod_lt a (Nat.pos_of_ne_zero hb)
      calc gcdLoop passes b (a % b) = Nat.gcd b (a % b) := ih (by omega)
        _ = Nat.gcd (a % b) b := Nat.gcd_comm _ _
        _ = Nat.gcd b a := (Nat.gcd_rec b a).symm
        _ = Nat.gcd a b := Nat.gcd_comm _ _

@[simp] theorem gcdF_eq_gcd (a b : Nat) : gcdF a b = Nat.gcd a b := gcdLoop_eq_gcd le_rfl

/-- A greatest common divisor is no wider than its operands, gcd(0, 0) = 0 included. -/
theorem gcd_lt_of_lt {a b m : Nat} (ha : a < m) (hb : b < m) : Nat.gcd a b < m := by
  rcases Nat.eq_zero_or_pos a with rfl | hpos
  · rwa [Nat.gcd_zero_left]
  · exact (Nat.gcd_le_left b hpos).trans_lt ha

/-! ### The commands -/

theorem exec_gcd_of_running {ops : Operands} {s : State} (h : Running .gcd ops s) :
    exec .gcd s = .next (s.finishRes0 (.ok (BitVec.ofNat 64 (gcdF ops.a.toNat ops.b.toNat)))) := by
  rw [← h.operands_eq]
  rfl

/-- XSHIFT reads no operand. -/
theorem exec_xshift_eq (s : State) :
    exec .xshift s = .next ((s.setSeed (xorshiftF s.seed)).finishRes0 (.ok (xorshiftF s.seed))) := rfl

/-- A command that writes SEED and RES0: the results, the completion and the frame. -/
theorem setSeed_finishRes0_ok (s : State) (seed v : Word) :
    Succeeded s ((s.setSeed seed).finishRes0 (.ok v)) ∧
      ((s.setSeed seed).finishRes0 (.ok v)).held .seed = some seed ∧
      ((s.setSeed seed).finishRes0 (.ok v)).held .res0 = some v ∧
      SameRegsExcept [.seed, .res0, .status] s ((s.setSeed seed).finishRes0 (.ok v)) ∧
      SameOutside s ((s.setSeed seed).finishRes0 (.ok v)) := by
  obtain ⟨-, hres0, hregs, -⟩ := finishRes0_ok (s.setSeed seed) v
  refine ⟨succeeded_of rfl rfl, rfl, hres0, fun r hr => ?_, ⟨rfl, rfl, rfl⟩⟩
  rw [hregs r (List.not_mem_of_not_mem_cons hr), held_setSeed, if_neg (List.ne_of_not_mem_cons hr)]

/-- Settles O31: GCD_F is the greatest common divisor, which is no wider than the operands and so fits in RES0. -/
theorem gcdIsEuclids : Obligations.GcdIsEuclids := by
  refine ⟨rfl, fun s ops hrun => ?_⟩
  have hfits : Nat.gcd ops.a.toNat ops.b.toNat < 2 ^ 64 := gcd_lt_of_lt ops.a.isLt ops.b.isLt
  obtain ⟨hdone, hheld, hregs, houtside⟩ := finishRes0_ok s (BitVec.ofNat 64 (gcdF ops.a.toNat ops.b.toNat))
  refine ⟨_, _, exec_gcd_of_running hrun, hdone, hheld, ?_, hregs, houtside⟩
  rw [gcdF_eq_gcd, toNat_ofNat_of_lt hfits]

/-- Settles O29: the statement's three shifts are XORSHIFT_F written out, and that word goes to SEED and RES0. -/
theorem xshiftAdvancesSeed : Obligations.XshiftAdvancesSeed :=
  ⟨rfl, fun s _ _ => ⟨_, exec_xshift_eq s, setSeed_finishRes0_ok s (xorshiftF s.seed) (xorshiftF s.seed)⟩⟩

end Sys2Proof.Machine
end

section
/-! PROOFS of the statement about FBUF_OVERFLOW (60_exceptions.md R254). EMIT fails exactly at index 15. No FACTOR of a
64-bit operand gets there: through steps 2 and 3 the records are distinct primes of the operand (at most 15 in all), and
in step 4 the records and the prime factors of the residual, counted with multiplicity, stay at most 15
(44_factorization.md R222). Nothing here rests on what ISPRIME_F answers. -/

namespace Sys2Proof.Machine

open scoped ArithmeticFunction.omega ArithmeticFunction.Omega

/-! ### How many prime factors fit (44_factorization.md R222) -/

/-- Among sets of primes of a given size the least primes have the least product. -/
theorem primorial_le_prod_of_card_le {N : Nat} {S : Finset Nat} (hprime : ∀ q ∈ S, q.Prime)
    (hcard : (Nat.primesLE N).card ≤ S.card) : primorial N ≤ ∏ q ∈ S, q := by
  have hbelow : ∀ q ∈ Nat.primesLE N \ S, q ≤ N + 1 := fun q hq =>
    Nat.le_succ_of_le (Nat.le_of_mem_primesLE (Finset.mem_sdiff.mp hq).1)
  have habove : ∀ q ∈ S \ Nat.primesLE N, N + 1 ≤ q := by
    intro q hq
    obtain ⟨hqS, hqN⟩ := Finset.mem_sdiff.mp hq
    by_contra hsmall
    exact hqN (Nat.mem_primesLE.mpr ⟨by omega, hprime q hqS⟩)
  rw [primorial_eq_prod_primesLE, ← Finset.prod_inter_mul_prod_sdiff (Nat.primesLE N) S,
    ← Finset.prod_inter_mul_prod_sdiff S (Nat.primesLE N), Finset.inter_comm S]
  refine Nat.mul_le_mul_left _ ?_
  calc ∏ q ∈ Nat.primesLE N \ S, q ≤ (N + 1) ^ (Nat.primesLE N \ S).card := Finset.prod_le_pow_card _ _ _ hbelow
    _ ≤ (N + 1) ^ (S \ Nat.primesLE N).card :=
      Nat.pow_le_pow_right N.succ_pos (Finset.card_sdiff_le_card_sdiff_iff.mpr hcard)
    _ ≤ ∏ q ∈ S \ Nat.primesLE N, q := Finset.pow_card_le_prod _ _ _ habove

theorem cardDistinctFactors_lt_card_primesLE {n N : Nat} (hn : n ≠ 0) (hlt : n < primorial N) :
    ω n < (Nat.primesLE N).card := by
  by_contra hcard
  have hmin : primorial N ≤ ∏ q ∈ n.primeFactors, q :=
    primorial_le_prod_of_card_le (fun _ => Nat.prime_of_mem_primeFactors) (not_lt.mp hcard)
  have hle : ∏ q ∈ n.primeFactors, q ≤ n := Nat.le_of_dvd (Nat.pos_of_ne_zero hn) (Nat.prod_primeFactors_dvd n)
  omega

/-- The product of the first 16 primes exceeds 2^64. -/
theorem cardDistinctFactors_le_fifteen {n : Nat} (hn : n ≠ 0) (hlt : n < 2 ^ 64) : ω n ≤ 15 :=
  Nat.le_of_lt_succ (cardDistinctFactors_lt_card_primesLE (N := 53) hn (hlt.trans (by decide)))

/-- The product of the first 10 primes exceeds 2^32. -/
theorem cardDistinctFactors_le_nine {n : Nat} (hn : n ≠ 0) (hlt : n < 2 ^ 32) : ω n ≤ 9 :=
  Nat.le_of_lt_succ (cardDistinctFactors_lt_card_primesLE (N := 29) hn (hlt.trans (by decide)))

/-- A 64-bit number without a prime factor below TRIAL_CAP has at most four prime factors. -/
theorem cardFactors_le_four_of_rough {n : Nat} (hn : n ≠ 0) (hlt : n < 2 ^ 64)
    (hrough : ∀ q, q.Prime → q ∣ n → Config.trialCap ≤ q) : Ω n ≤ 4 := by
  by_contra hmany
  have hprod : Config.trialCap ^ Ω n ≤ n := by
    calc Config.trialCap ^ Ω n ≤ n.primeFactorsList.prod := List.pow_card_le_prod _ _ fun q hq =>
          hrough q (Nat.prime_of_mem_primeFactorsList hq) (Nat.dvd_of_mem_primeFactorsList hq)
      _ = n := Nat.prod_primeFactorsList hn
  have hfive : Config.trialCap ^ 5 ≤ Config.trialCap ^ Ω n := Nat.pow_le_pow_right (by decide) (by omega)
  have hcap : 2 ^ 64 < Config.trialCap ^ 5 := by decide
  omega

/-! ### Division loops (44_factorization.md R211, R213) -/

theorem stripTwos_eq_divideOut (passes n e : Nat) : stripTwos passes n e = divideOut 2 passes n e := by
  induction passes generalizing n e with
  | zero => rfl
  | succ passes ih => simp only [stripTwos, divideOut, ih]

/-- The loop divides `p` out entirely when there is a pass for each division, and counts the divisions. -/
theorem divideOut_spec {p passes n : Nat} (hp : 1 < p) (hn : n ≠ 0) (hlt : n < p ^ passes) (e : Nat) :
    ∃ c, (divideOut p passes n e).2 = e + c ∧ n = p ^ c * (divideOut p passes n e).1 ∧
      ¬ p ∣ (divideOut p passes n e).1 := by
  induction passes generalizing n e with
  | zero => exact absurd (Nat.lt_one_iff.mp hlt) hn
  | succ passes ih =>
    rw [divideOut]
    split
    · next hmod =>
      obtain ⟨m, rfl⟩ := Nat.dvd_of_mod_eq_zero hmod
      have hm : m ≠ 0 := right_ne_zero_of_mul hn
      have hmlt : m < p ^ passes := Nat.lt_of_mul_lt_mul_left (by rwa [pow_succ'] at hlt)
      obtain ⟨c, hcount, hsplit, hrest⟩ := ih hm hmlt (e + 1)
      rw [Nat.mul_div_cancel_left m (by omega)]
      refine ⟨c + 1, by omega, ?_, hrest⟩
      rw [pow_succ', mul_assoc, ← hsplit]
    · next hmod => exact ⟨0, rfl, (one_mul n).symm, fun hdvd => hmod (Nat.mod_eq_zero_of_dvd hdvd)⟩

/-- On a 64-bit number 64 passes are enough for every divisor above 1. -/
theorem divideOut_64 {p n : Nat} (hp : 1 < p) (hn : n ≠ 0) (hlt : n < 2 ^ 64) :
    n = p ^ (divideOut p 64 n 0).2 * (divideOut p 64 n 0).1 ∧ ¬ p ∣ (divideOut p 64 n 0).1 := by
  obtain ⟨c, hcount, hsplit, hrest⟩ := divideOut_spec hp hn (hlt.trans_le (Nat.pow_le_pow_left hp 64)) 0
  rw [Nat.zero_add] at hcount
  exact ⟨by rw [hcount]; exact hsplit, hrest⟩

/-! ### Rho answers divisors (43_pollard_rho.md R184) -/

theorem rhoLoop_dvd (n : Nat) : ∀ left y x i j, rhoLoop n left y x i j ∣ n
  | 0, _, _, _, _ => dvd_refl n
  | left + 1, y, x, i, j => by
    unfold rhoLoop
    extract_lets x' j' y' diff
    split
    · exact (gcdF_eq_gcd _ n).dvd.trans (Nat.gcd_dvd_right _ n)
    · exact rhoLoop_dvd n left _ _ _ _

theorem rhoF_fst_dvd (n : Nat) (seed : Word) : (rhoF n seed).1 ∣ n := rhoLoop_dvd n _ _ _ _ _

/-! ### Driver steps that never overflow -/

/-- The step does not end with FBUF_OVERFLOW, and what it answers meets `post`. -/
structure NeverOverflows {α : Type} (post : α → Prop) (r : Except DriverStop α) : Prop where
  no_overflow : ∀ seed, r ≠ .error (.error .fbufOverflow seed)
  post_of_ok : ∀ a, r = .ok a → post a

theorem NeverOverflows.ok {α : Type} {post : α → Prop} {a : α} (h : post a) : NeverOverflows post (.ok a) :=
  ⟨fun _ => nofun, fun _ heq => by cases heq; exact h⟩

theorem NeverOverflows.error {α : Type} {post : α → Prop} {stop : DriverStop}
    (h : ∀ seed, stop ≠ .error .fbufOverflow seed) : NeverOverflows post (.error stop) :=
  ⟨fun seed heq => h seed (by cases heq; rfl), fun _ => nofun⟩

/-- The driver passes an error of an earlier step on. -/
theorem NeverOverflows.of_error {α β : Type} {mid : α → Prop} {post : β → Prop} {r : Except DriverStop α}
    {stop : DriverStop} (h : NeverOverflows mid r) (heq : r = .error stop) : NeverOverflows post (.error stop) :=
  .error fun seed hstop => h.no_overflow seed (by rw [heq, hstop])

theorem emit_eq_ok {d : Driver} (h : d.records.length < 15) (q e : Nat) :
    emit q e d = .ok { d with records := d.records ++ [{ prime := BitVec.ofNat 64 q, power := BitVec.ofNat 32 e }] } :=
  if_neg (Nat.not_le.mpr h)

theorem emit_eq_overflow {d : Driver} (h : 15 ≤ d.records.length) (q e : Nat) :
    emit q e d = .error (.error .fbufOverflow d.seed) :=
  if_pos h

/-- A retry loop emits nothing; it answers a proper divisor. -/
theorem neverOverflows_rhoRetry (limit m budget : Nat) (d : Driver) :
    NeverOverflows (fun a => a.1 ∣ m ∧ a.1 ≠ 1 ∧ a.1 ≠ m ∧ a.2.n = d.n ∧ a.2.records = d.records)
      (rhoRetry limit m budget d) := by
  induction budget generalizing d with
  | zero => exact .error fun _ => nofun
  | succ budget ih =>
    simp only [rhoRetry]
    split
    · next hx => exact .ok ⟨rhoF_fst_dvd m d.seed, hx.1, hx.2, rfl, rfl⟩
    · split
      · exact .error fun _ => nofun
      · exact ih { d with seed := (rhoF m d.seed).2, budget := budget, fails := d.fails + 1 }

/-! ### Steps 2 and 3: one record for each prime divided out -/

/-- `k` records stand for `k` distinct primes of some `a` divided out of a 64-bit number, of which `n` is left. -/
def Accounted (k n : Nat) : Prop :=
  ∃ a, a * n ≠ 0 ∧ a * n < 2 ^ 64 ∧ a.Coprime n ∧ k ≤ ω a

theorem Accounted.start {n : Nat} (hn : n ≠ 0) (hlt : n < 2 ^ 64) : Accounted 0 n :=
  ⟨1, by simpa using hn, by simpa using hlt, Nat.coprime_one_left n, Nat.zero_le _⟩

theorem Accounted.ne_zero {k n : Nat} (h : Accounted k n) : n ≠ 0 := by
  obtain ⟨a, hne, -⟩ := h
  exact right_ne_zero_of_mul hne

theorem Accounted.lt {k n : Nat} (h : Accounted k n) : n < 2 ^ 64 := by
  obtain ⟨a, hne, hlt, -⟩ := h
  exact (Nat.le_mul_of_pos_left n (Nat.pos_of_ne_zero (left_ne_zero_of_mul hne))).trans_lt hlt

/-- Passing to a divisor of the residual, as SQPOW_F does. -/
theorem Accounted.of_dvd {k n n' : Nat} (h : Accounted k n) (hdvd : n' ∣ n) : Accounted k n' := by
  obtain ⟨a, hne, hlt, hcop, hk⟩ := h
  have hdvd' : a * n' ∣ a * n := Nat.mul_dvd_mul_left a hdvd
  exact ⟨a, ne_zero_of_dvd_ne_zero hne hdvd', (Nat.le_of_dvd (Nat.pos_of_ne_zero hne) hdvd').trans_lt hlt,
    hcop.coprime_dvd_right hdvd, hk⟩

/-- Dividing a prime out entirely makes room for one more record. -/
theorem Accounted.divide {k n' q e : Nat} (h : Accounted k (q ^ e * n')) (hq : q.Prime) (he : e ≠ 0)
    (hrest : ¬ q ∣ n') : Accounted (k + 1) n' := by
  obtain ⟨a, hne, hlt, hcop, hk⟩ := h
  obtain ⟨hpower, hresidual⟩ := Nat.coprime_mul_iff_right.mp hcop
  have hqn : (q ^ e).Coprime n' := ((Nat.Prime.coprime_iff_not_dvd hq).mpr hrest).pow_left e
  refine ⟨a * q ^ e, by rwa [mul_assoc], by rwa [mul_assoc], Nat.Coprime.mul_left hresidual hqn, ?_⟩
  rw [ArithmeticFunction.cardDistinctFactors_mul hpower, ArithmeticFunction.cardDistinctFactors_apply_prime_pow hq he]
  omega

/-- While something is left, there is room for its record. -/
theorem Accounted.lt_fifteen {k n : Nat} (h : Accounted k n) (hn : n ≠ 1) : k < 15 := by
  have hpos : 0 < ω n := ArithmeticFunction.cardDistinctFactors_pos.mpr (by have := h.ne_zero; omega)
  obtain ⟨a, hne, hlt, hcop, hk⟩ := h
  have hall : ω (a * n) ≤ 15 := cardDistinctFactors_le_fifteen hne hlt
  rw [ArithmeticFunction.cardDistinctFactors_mul hcop] at hall
  omega

/-- A residual above 32 bits leaves at most 32 bits, so nine primes, to the records. -/
theorem Accounted.le_nine {k n : Nat} (h : Accounted k n) (hwide : Config.word32Max < n) : k ≤ 9 := by
  obtain ⟨a, hne, hlt, -, hk⟩ := h
  have hsmall : a < 2 ^ 32 := by
    by_contra hbig
    have hproduct : 2 ^ 32 * 2 ^ 32 ≤ a * n := Nat.mul_le_mul (not_lt.mp hbig) hwide
    omega
  exact hk.trans (cardDistinctFactors_le_nine (left_ne_zero_of_mul hne) hsmall)

/-- What steps 2 and 3 keep, with every prime below `p` divided out of the residual. -/
structure Trialled (p : Nat) (d : Driver) : Prop where
  accounted : Accounted d.records.length d.n
  rough : ∀ q, q.Prime → q ∣ d.n → p ≤ q
  pow_lt : d.pow < 2 ^ 32

theorem sqpowF_n_dvd {n pow : Nat} (hn : n < 2 ^ 64) (hpow : pow < 2 ^ 32) : (sqpowF n pow).n ∣ n := by
  obtain ⟨j, -, -, hreduced⟩ := exists_reducedBy_sqpowF hn hpow
  have hself : (sqpowF n pow).n ∣ (sqpowF n pow).n ^ 2 ^ j := dvd_pow_self _ (by positivity)
  rwa [← hreduced.power] at hself

theorem Trialled.sqpow {p : Nat} {d : Driver} (h : Trialled p d) :
    Trialled p { d with n := (sqpowF d.n d.pow).n, pow := (sqpowF d.n d.pow).pow } where
  accounted := h.accounted.of_dvd (sqpowF_n_dvd h.accounted.lt h.pow_lt)
  rough q hq hdvd := h.rough q hq (hdvd.trans (sqpowF_n_dvd h.accounted.lt h.pow_lt))
  pow_lt := sqpowF_pow_lt h.accounted.lt h.pow_lt

/-- A candidate that no longer divides is done with. -/
theorem Trialled.succ {p : Nat} {d : Driver} (h : Trialled p d) (hrest : ¬ p ∣ d.n) : Trialled (p + 1) d where
  accounted := h.accounted
  rough q hq hdvd := lt_of_le_of_ne (h.rough q hq hdvd) fun heq => hrest (heq ▸ hdvd)
  pow_lt := h.pow_lt

/-- After an odd candidate the next odd number is the next candidate, because the even one between is no prime. -/
theorem Trialled.next {p : Nat} {d : Driver} (h : Trialled p d) (hodd : p % 2 = 1) (hthree : 3 ≤ p)
    (hrest : ¬ p ∣ d.n) : Trialled (p + 2) d where
  accounted := h.accounted
  rough q hq hdvd := by
    have hlt : p + 1 ≤ q := (h.succ hrest).rough q hq hdvd
    have hqodd : q % 2 = 1 := hq.eq_two_or_odd.resolve_left (by omega)
    omega
  pow_lt := h.pow_lt

/-- The first candidate that divides is prime (44_factorization.md R213). -/
theorem Trialled.prime {p : Nat} {d : Driver} (h : Trialled p d) (hp : 1 < p) (hdvd : p ∣ d.n) : p.Prime := by
  have hle : p ≤ p.minFac := h.rough _ (Nat.minFac_prime hp.ne') ((Nat.minFac_dvd p).trans hdvd)
  exact Nat.prime_def_minFac.mpr ⟨hp, le_antisymm (Nat.minFac_le (by omega)) hle⟩

/-- Dividing `p` out, with a record for it. -/
theorem Trialled.recorded {p : Nat} {d : Driver} (h : Trialled p d) (hp : p.Prime) (hdvd : p ∣ d.n)
    (r : FactorRecord) : Trialled p { d with n := (divideOut p 64 d.n 0).1, records := d.records ++ [r] } := by
  obtain ⟨hsplit, hrest⟩ := divideOut_64 hp.one_lt h.accounted.ne_zero h.accounted.lt
  have hcount : (divideOut p 64 d.n 0).2 ≠ 0 := by
    intro hzero
    rw [hzero, pow_zero, one_mul] at hsplit
    exact hrest (hsplit ▸ hdvd)
  have hleft : (divideOut p 64 d.n 0).1 ∣ d.n := ⟨_, hsplit.trans (mul_comm _ _)⟩
  refine ⟨?_, fun q hq hqd => h.rough q hq (hqd.trans hleft), h.pow_lt⟩
  rw [List.length_append]
  exact (hsplit ▸ h.accounted).divide hp hcount hrest

/-! ### What is left for steps 4 and 5 -/

/-- The residual's prime factors, counted with multiplicity, still fit after the records. -/
structure Counted (d : Driver) : Prop where
  ne_zero : d.n ≠ 0
  le_fifteen : d.records.length + Ω d.n ≤ 15

/-- What step 3 leaves and step 4 keeps: room for the residual, and for all its factors where step 4 splits it. -/
structure Fits (d : Driver) : Prop where
  room : d.n ≠ 1 → d.records.length < 15
  counted : Config.word32Max < d.n → Counted d

theorem Counted.fits {d : Driver} (h : Counted d) : Fits d where
  room hn := by
    obtain ⟨hne, hle⟩ := h
    have hpos : 0 < Ω d.n := ArithmeticFunction.cardFactors_pos_iff_one_lt.mpr (by omega)
    omega
  counted _ := h

/-- Trial division up to TRIAL_CAP leaves at most four prime factors of a wide residual, after at most nine records. -/
theorem Trialled.fits {p : Nat} {d : Driver} (h : Trialled p d)
    (hend : Config.word32Max < d.n → Config.trialCap ≤ p) : Fits d where
  room := h.accounted.lt_fifteen
  counted hwide := by
    have hrecords : d.records.length ≤ 9 := h.accounted.le_nine hwide
    have hfactors : Ω d.n ≤ 4 := cardFactors_le_four_of_rough h.accounted.ne_zero h.accounted.lt
      fun q hq hdvd => (hend hwide).trans (h.rough q hq hdvd)
    exact ⟨h.accounted.ne_zero, by omega⟩

/-- A residual above 32 bits has the bound TRIAL_CAP. -/
theorem trialBound_of_wide {n : Nat} (h : Config.word32Max < n) : trialBound n = Config.trialCap :=
  if_pos (lt_trans (by decide) h)

/-! ### Steps 2 and 3 never overflow (44_factorization.md R211, R213) -/

theorem neverOverflows_stripStage {d : Driver} (h : Accounted 0 d.n) (hrecords : d.records = []) (hpow : d.pow = 1) :
    NeverOverflows (Trialled 3) (stripStage d) := by
  have hstart : Trialled 2 d := ⟨by rwa [hrecords], fun q hq _ => hq.two_le, by simp [hpow]⟩
  obtain ⟨hsplit, hodd⟩ := divideOut_64 one_lt_two h.ne_zero h.lt
  rw [stripStage, stripTwos_eq_divideOut]
  simp only
  split
  · next hc =>
    have hdvd : 2 ∣ d.n := hsplit ▸ (dvd_pow_self 2 hc.ne').mul_right _
    rw [emit_eq_ok (by simp [hrecords])]
    exact .ok ((hstart.recorded Nat.prime_two hdvd _).succ hodd)
  · next hc =>
    have hsame : (divideOut 2 64 d.n 0).1 = d.n := by
      have hzero : (divideOut 2 64 d.n 0).2 = 0 := by omega
      rw [hzero, pow_zero, one_mul] at hsplit
      exact hsplit.symm
    rw [hsame] at hodd ⊢
    exact .ok (hstart.succ hodd)

/-- The loop ends at its bound, or after passes enough for TRIAL_CAP, which is the bound of a wide residual. -/
theorem neverOverflows_trialLoop {passes p bound : Nat} {d : Driver} (h : Trialled p d) (hodd : p % 2 = 1)
    (hthree : 3 ≤ p) (hbound : bound = trialBound d.n) (hpasses : Config.trialCap ≤ p + 2 * passes) :
    NeverOverflows Fits (trialLoop passes p bound d) := by
  induction passes generalizing p bound d with
  | zero => exact .ok (h.fits fun _ => hpasses)
  | succ passes ih =>
    rw [trialLoop]
    split
    · split
      · next hmod =>
        have hdvd : p ∣ d.n := Nat.dvd_of_mod_eq_zero hmod
        have hp : p.Prime := h.prime (by omega) hdvd
        have hroom : d.records.length < 15 := h.accounted.lt_fifteen fun hone => by
          rw [hone] at hdvd
          exact hp.one_lt.ne' (Nat.dvd_one.mp hdvd)
        obtain ⟨-, hrest⟩ := divideOut_64 hp.one_lt h.accounted.ne_zero h.accounted.lt
        rw [emit_eq_ok hroom]
        have hrecorded := h.recorded hp hdvd
          { prime := BitVec.ofNat 64 p, power := BitVec.ofNat 32 ((divideOut p 64 d.n 0).2 * d.pow) }
        have hdone := hrecorded.next hodd hthree hrest
        exact ih hdone.sqpow (by omega) (by omega) rfl (by omega)
      · next hmod =>
        exact ih (h.next hodd hthree fun hdvd => hmod (Nat.mod_eq_zero_of_dvd hdvd)) (by omega) (by omega) hbound
          (by omega)
    · next hend =>
      refine .ok (h.fits fun hwide => ?_)
      rw [← trialBound_of_wide hwide, ← hbound]
      exact not_lt.mp hend

theorem neverOverflows_trialStage {d : Driver} (h : Trialled 3 d) : NeverOverflows Fits (trialStage d) := by
  rw [trialStage]
  split
  · exact neverOverflows_trialLoop h.sqpow rfl le_rfl rfl (by decide)
  · next hsmall =>
    refine .ok (h.fits fun hwide => ?_)
    simp only [Config.word32Max] at hwide
    omega

/-! ### Step 4 (44_factorization.md R214 to R216) -/

/-- `x` is split off the residual; its prime factors still fit together with those of what is left. -/
structure CountedWith (x : Nat) (d : Driver) : Prop where
  ne_zero : d.n ≠ 0
  one_lt : 1 < x
  le_fifteen : d.records.length + Ω x + Ω d.n ≤ 15

theorem CountedWith.cardFactors_pos {x : Nat} {d : Driver} (h : CountedWith x d) : 0 < Ω x :=
  ArithmeticFunction.cardFactors_pos_iff_one_lt.mpr h.one_lt

/-- At most one record for each prime factor of `x` keeps the count. -/
theorem CountedWith.counted {x : Nat} {d d' : Driver} (h : CountedWith x d) (hn : d'.n = d.n)
    (hrecords : d'.records.length ≤ d.records.length + Ω x) : Counted d' where
  ne_zero := hn ▸ h.ne_zero
  le_fifteen := by
    have hle := h.le_fifteen
    rw [hn]
    omega

/-- Ω adds up over a factorization by a proper divisor, and both parts count. -/
theorem cardFactors_split {x n : Nat} (hn : n ≠ 0) (hdvd : x ∣ n) (hone : x ≠ 1) :
    n / x ≠ 0 ∧ 1 < x ∧ Ω n = Ω x + Ω (n / x) := by
  obtain ⟨m, rfl⟩ := hdvd
  have hx : x ≠ 0 := left_ne_zero_of_mul hn
  have hm : m ≠ 0 := right_ne_zero_of_mul hn
  rw [Nat.mul_div_cancel_left m (Nat.pos_of_ne_zero hx)]
  exact ⟨hm, by omega, ArithmeticFunction.cardFactors_mul hx hm⟩

theorem Counted.split {x : Nat} {d d' : Driver} (h : Counted d) (hdvd : x ∣ d.n) (hone : x ≠ 1)
    (hn : d'.n = d.n / x) (hrecords : d'.records.length = d.records.length) : CountedWith x d' := by
  obtain ⟨hleft, hx, hsum⟩ := cardFactors_split h.ne_zero hdvd hone
  have hle := h.le_fifteen
  exact ⟨hn ▸ hleft, hx, by rw [hn]; omega⟩

/-- A number with a proper divisor has at least two prime factors. -/
theorem two_le_cardFactors_of_dvd {x y : Nat} (hx : x ≠ 0) (hdvd : y ∣ x) (hone : y ≠ 1) (hne : y ≠ x) :
    2 ≤ Ω x := by
  obtain ⟨hleft, hy, hsum⟩ := cardFactors_split hx hdvd hone
  have hquot : x / y ≠ 1 := fun h => hne (Nat.eq_of_dvd_of_div_eq_one hdvd h)
  have hypos : 0 < Ω y := ArithmeticFunction.cardFactors_pos_iff_one_lt.mpr hy
  have hqpos : 0 < Ω (x / y) := ArithmeticFunction.cardFactors_pos_iff_one_lt.mpr
    (Nat.one_lt_iff_ne_zero_and_ne_one.mpr ⟨hleft, hquot⟩)
  omega

theorem CountedWith.recorded {x : Nat} {d : Driver} (h : CountedWith x d) (r : FactorRecord) :
    Counted { d with records := d.records ++ [r] } :=
  h.counted rfl (by rw [List.length_append]; exact Nat.add_le_add_left h.cardFactors_pos _)

theorem CountedWith.room {x : Nat} {d : Driver} (h : CountedWith x d) : d.records.length < 15 := by
  have hle := h.le_fifteen
  have hpos := h.cardFactors_pos
  omega

/-- One record for `x`, whatever its value and its power. -/
theorem CountedWith.neverOverflows_emit {x : Nat} {d : Driver} (h : CountedWith x d) (q e : Nat) :
    NeverOverflows Counted (emit q e d) := by
  rw [emit_eq_ok h.room]
  exact .ok (h.recorded _)

/-- A wide `x` takes two records only after RHO_RETRY split it, and then it has two prime factors. -/
theorem neverOverflows_classifyWide {x : Nat} {d : Driver} (limit : Nat) (h : CountedWith x d) :
    NeverOverflows Counted (classifyWide limit x d) := by
  rw [classifyWide]
  split
  · exact h.neverOverflows_emit _ _
  · split
    · exact h.neverOverflows_emit _ _
    · have hretry := neverOverflows_rhoRetry limit x d.budget d
      split
      · next heq => exact hretry.of_error heq
      · next y d' heq =>
        obtain ⟨hdvd, hone, hne, hn, hrecords⟩ := hretry.post_of_ok _ heq
        have htwo : 2 ≤ Ω x := two_le_cardFactors_of_dvd (by have := h.one_lt; omega) hdvd hone hne
        have hle : d.records.length + Ω x + Ω d.n ≤ 15 := h.le_fifteen
        have hlength : d'.records.length = d.records.length := congrArg _ hrecords
        rw [emit_eq_ok (by omega)]
        simp only
        rw [emit_eq_ok (by simp only [List.length_append, List.length_singleton]; omega)]
        exact .ok (h.counted hn (by simp only [List.length_append, List.length_singleton]; omega))

/-- A narrow `x` takes one record, and may be divided out once more. -/
theorem neverOverflows_classifyNarrow {x : Nat} {d : Driver} (h : CountedWith x d) :
    NeverOverflows Counted (classifyNarrow x d) := by
  rw [classifyNarrow]
  split
  · next hmod =>
    have hcounted : Counted d := h.counted rfl (Nat.le_add_right _ _)
    have hagain : CountedWith x { d with n := d.n / x } :=
      hcounted.split (Nat.dvd_of_mod_eq_zero hmod) h.one_lt.ne' rfl rfl
    rw [emit_eq_ok h.room]
    exact .ok (hagain.recorded _)
  · exact h.neverOverflows_emit _ _

theorem neverOverflows_rhoStage {d : Driver} (limit passes : Nat) (h : Fits d) :
    NeverOverflows Fits (rhoStage limit passes d) := by
  induction passes generalizing d with
  | zero => exact .error fun _ => nofun
  | succ passes ih =>
    rw [rhoStage]
    split
    · next hwide =>
      have hretry := neverOverflows_rhoRetry limit d.n d.budget d
      split
      · next heq => exact hretry.of_error heq
      · next x d' heq =>
        obtain ⟨hdvd, hone, -, hn, hrecords⟩ := hretry.post_of_ok _ heq
        have hwith : CountedWith x { d' with n := d'.n / x } :=
          (h.counted hwide.1).split hdvd hone (by rw [hn]) (by rw [hrecords])
        have hclass : NeverOverflows Counted (if x > Config.word32Max then
            classifyWide limit x { d' with n := d'.n / x } else classifyNarrow x { d' with n := d'.n / x }) := by
          split
          · exact neverOverflows_classifyWide limit hwith
          · exact neverOverflows_classifyNarrow hwith
        simp only
        split
        · next heq => exact hclass.of_error heq
        · next heq => exact ih (hclass.post_of_ok _ heq).fits
    · exact .ok h

/-! ### The whole driver -/

theorem neverOverflows_finalResidual {d : Driver} (h : Fits d) : NeverOverflows (fun _ => True) (finalResidual d) := by
  rw [finalResidual]
  split
  · next hn =>
    rw [emit_eq_ok (h.room hn)]
    exact .ok trivial
  · exact .ok trivial

theorem neverOverflows_factorF {n : Nat} (limit budget : Nat) (seed : Word) (hlt : n < 2 ^ 64) :
    NeverOverflows (fun _ => True) (factorF limit budget n seed) := by
  simp only [factorF]
  split
  · exact .ok trivial
  · next hn =>
    split
    · exact .ok trivial
    · have hstart : Accounted 0 n := .start (by omega) hlt
      have hstrip := neverOverflows_stripStage
        (d := { n := n, pow := 1, records := [], seed := seed, fails := 0, budget := budget }) hstart rfl rfl
      split
      · next hstop => exact hstrip.of_error hstop
      · next hstripped =>
        have htrial := neverOverflows_trialStage (hstrip.post_of_ok _ hstripped)
        split
        · next hstop => exact htrial.of_error hstop
        · next d htrialled =>
          have hrho := neverOverflows_rhoStage limit (d.budget + 1) (htrial.post_of_ok _ htrialled)
          split
          · next hstop => exact hrho.of_error hstop
          · next hsplit => exact neverOverflows_finalResidual (hrho.post_of_ok _ hsplit)

/-- Settles O37: EMIT fails exactly at index 15, and every record of a 64-bit operand finds an index below it. -/
theorem factorNeverOverflows : Obligations.FactorNeverOverflows :=
  ⟨fun q e _ h => emit_eq_overflow h q e, fun q e _ h => ⟨_, emit_eq_ok h q e, by simp⟩,
    fun limit budget _ seed seed' hlt => (neverOverflows_factorF limit budget seed hlt).no_overflow seed'⟩

end Sys2Proof.Machine
end

section
/-! PROOFS of the statements about the round trip of command words (30_encoding.md R90 to R92) through decoding, the
bytes of the bus (20_memory.md R65) and the numbering of the opcode table. -/

namespace Sys2Proof.Laws

/-! ### Well-formed words (30_encoding.md R90, R95) -/

theorem wellFormedWord_iff (w : Word) : wellFormedWord w = true ↔ 1 ≤ w.toNat ∧ w.toNat ≤ 9 := by
  simp only [wellFormedWord, wordReservedZero, wordOpcodeAssigned, Bool.and_eq_true, beq_iff_eq, decide_eq_true_eq]
  omega

theorem wellFormedWord_iff_decodes (w : Word) : wellFormedWord w = true ↔ ∃ i, decode w = .ok i := by
  simp only [wellFormedWord_iff, decode_eq_ok_iff, exists_toNat_encode_iff]

/-! ### Words on the bus (20_memory.md R65) -/

theorem toNat_busByte (w : Word) (i : Nat) : (busByte w i).toNat = w.toNat / 2 ^ (8 * i) % 256 := by
  rw [busByte, BitVec.extractLsb'_toNat, Nat.shiftRight_eq_div_pow]

/-- The eight bytes of a word make the word's number. -/
theorem littleEndian_busBytes (w : Word) : littleEndian (busBytes w) = w.toNat := by
  have hw : w.toNat < 2 ^ 64 := w.isLt
  simp only [busBytes, littleEndian, toNat_busByte]
  omega

/-- Decoding the bytes of a word is decoding the word, and leaves the bytes after them. -/
theorem decodeBytes_busBytes (w : Word) (rest : List Byte) :
    decodeBytes (busBytes w ++ rest) = (decode w).map fun i => (i, rest) := by
  have hword : BitVec.ofNat 64 (littleEndian (busBytes w)) = w := by
    rw [littleEndian_busBytes, BitVec.ofNat_toNat, BitVec.setWidth_eq]
  simp only [busBytes] at hword
  simp only [busBytes, List.cons_append, List.nil_append, decodeBytes, hword]
  cases decode w <;> rfl

/-- A table word decodes as the word of its low 64 bits. -/
theorem decodeTableWord_eq (w : Nat) : decodeTableWord 64 w = decodeCommand (tableWord 64 w) := by
  have hbytes : decodeBytes (busBytes (tableWord 64 w)) = (decode (tableWord 64 w)).map fun i => (i, []) := by
    simpa using decodeBytes_busBytes (tableWord 64 w) []
  rw [decodeTableWord, if_neg (lt_irrefl 64), hbytes, decodeCommand]
  cases decode (tableWord 64 w) <;> rfl

theorem tableWord_toNat (w : Word) : tableWord 64 w.toNat = w := by
  rw [tableWord, Nat.mod_eq_of_lt w.isLt, BitVec.ofNat_toNat, BitVec.setWidth_eq]

/-- Settles O3: a command's word is the one word that decodes to it, the bytes of a word make its number, and the table
numbers the bits as the word does. -/
theorem encodeAndDecodeAgree : Obligations.EncodeAndDecodeAgree := by
  refine ⟨fun i => ⟨decode_encode i, ?_⟩, fun w i => encode_of_decode, wellFormedWord_iff_decodes, fun w i rest => ?_,
    fun w => ?_⟩
  · exact (wellFormedWord_iff_decodes _).mpr ⟨i, decode_encode i⟩
  · rw [decodeBytes_busBytes]
    cases decode w <;> simp [Except.map]
  · rw [decodeTableWord_eq, tableWord_toNat]

/-- Settles O1: the eight words are closed, and `decode` is evaluated on each. -/
theorem opcodeTableWordsDecode : Obligations.OpcodeTableWordsDecode := by
  unfold Obligations.OpcodeTableWordsDecode
  decide

end Sys2Proof.Laws
end

section
/-! PROOFS of the statements about the register window (20_memory.md) and about reads and idle writes of it: where a
register stands, which accesses the bus refuses, and what a permitted access leaves unchanged. -/

namespace Sys2Proof.Machine

/-! ### The map of the window (20_memory.md R61) -/

theorem exists_offset_iff (off : Nat) :
    (∃ r : Reg, off = r.offset) ↔ off % 8 = 0 ∧ (off ≤ 0x040 ∨ (0x080 ≤ off ∧ off < 0x180)) := by
  constructor
  · rintro ⟨r, rfl⟩
    cases r with
    | fbufPrime k | fbufPower k => simp only [Reg.offset]; omega
    | _ => decide
  · rintro ⟨halign, hlow | ⟨hlow, hhigh⟩⟩
    · obtain ⟨k, rfl⟩ := Nat.dvd_of_mod_eq_zero halign
      have hk : k ≤ 8 := by omega
      interval_cases k
      exacts [⟨.cmd, rfl⟩, ⟨.status, rfl⟩, ⟨.opa, rfl⟩, ⟨.opb, rfl⟩, ⟨.opc, rfl⟩, ⟨.res0, rfl⟩, ⟨.res1, rfl⟩,
        ⟨.res2, rfl⟩, ⟨.seed, rfl⟩]
    · have hk : (off - 0x080) / 16 < 16 := by omega
      rcases (by omega : off % 16 = 0 ∨ off % 16 = 8) with hprime | hpower
      · exact ⟨.fbufPrime ⟨_, hk⟩, by simp only [Reg.offset]; omega⟩
      · exact ⟨.fbufPower ⟨_, hk⟩, by simp only [Reg.offset]; omega⟩

/-- An offset that is no register's is reserved. -/
theorem regAt_eq_none {off : Nat} (h : ¬ ∃ r : Reg, off = r.offset) : regAt off = none := by
  rw [exists_offset_iff] at h
  have hlow : ∀ k ≤ 0x040, k % 8 = 0 → off ≠ k := by omega
  by_cases hfbuf : 0x080 ≤ off ∧ off < 0x180
  · have hprime : off % 16 ≠ 0 := by omega
    have hpower : off % 16 ≠ 8 := by omega
    simp [regAt, hlow, hprime, hpower]
  · simp [regAt, hlow, hfbuf]

theorem offset_of_regAt {off : Nat} {r : Reg} (h : regAt off = some r) : off = r.offset := by
  by_cases hreg : ∃ q : Reg, off = q.offset
  · obtain ⟨q, rfl⟩ := hreg
    rw [regAt_offset] at h
    rw [Option.some.inj h]
  · rw [regAt_eq_none hreg] at h
    cases h

theorem exists_readOnly_offset_iff (off : Nat) :
    (∃ r : Reg, off = r.offset ∧ r.isReadOnly = true) ↔
      off = 0x008 ∨ off = 0x028 ∨ off = 0x030 ∨ off = 0x038 ∨ (off % 8 = 0 ∧ 0x080 ≤ off ∧ off < 0x180) := by
  constructor
  · rintro ⟨r, rfl, hro⟩
    cases r with
    | fbufPrime k | fbufPower k => simp only [Reg.offset]; omega
    | status | res0 | res1 | res2 => decide
    | _ => cases hro
  · rintro (rfl | rfl | rfl | rfl | ⟨halign, hlow, hhigh⟩)
    · exact ⟨.status, rfl, rfl⟩
    · exact ⟨.res0, rfl, rfl⟩
    · exact ⟨.res1, rfl, rfl⟩
    · exact ⟨.res2, rfl, rfl⟩
    · obtain ⟨r, rfl⟩ := (exists_offset_iff off).mpr ⟨halign, .inr ⟨hlow, hhigh⟩⟩
      cases r with
      | fbufPrime k | fbufPower k => exact ⟨_, rfl, rfl⟩
      | _ => simp [Reg.offset] at hlow

/-! ### Refused accesses (20_memory.md R63, R64, R66) -/

theorem checkAccess_eq_ok_iff {off n : Nat} {r : Reg} : checkAccess off n = .ok r ↔ n = 8 ∧ off = r.offset := by
  constructor
  · intro h
    unfold checkAccess at h
    split_ifs at h with hwidth
    split at h
    · next q hq =>
      cases h
      exact ⟨not_not.mp hwidth, offset_of_regAt hq⟩
    · cases h
  · rintro ⟨rfl, rfl⟩
    exact checkAccess_offset r

theorem exists_checkAccess_error_iff (off n : Nat) :
    (∃ f, checkAccess off n = .error f) ↔ ¬ (n = 8 ∧ ∃ r : Reg, off = r.offset) := by
  simp only [← exists_and_left, ← checkAccess_eq_ok_iff]
  cases checkAccess off n <;> simp

theorem exists_memWrite_error_iff (s : State) (off n : Nat) (v : Word) :
    (∃ f, s.memWrite off n v = .error f) ↔
      (∃ f, checkAccess off n = .error f) ∨ (n = 8 ∧ ∃ r : Reg, off = r.offset ∧ r.isReadOnly = true) := by
  simp only [← exists_and_left, ← and_assoc, ← checkAccess_eq_ok_iff, State.memWrite]
  cases checkAccess off n with
  | error f => simp
  | ok r =>
    cases hro : r.isReadOnly with
    | true => simp [hro]
    | false => cases s.seq.isBusy <;> simp [hro]

/-! ### Permitted reads (20_memory.md R68; 10_state.md R43) -/

/-- A permitted read moves the draw counter at most. -/
theorem memRead_snd {s t : State} {off n : Nat} {v : Word} (h : s.memRead off n = .ok (v, t)) :
    ∃ k, t = { s with draws := k } := by
  obtain ⟨r, -, hr⟩ := memRead_cases h
  obtain ⟨k, hk⟩ := readReg_snd s r
  exact ⟨k, by rw [← hk, hr]⟩

/-! ### Idle writes (20_memory.md R65) -/

theorem memWrite_offset_idle {s : State} {r : Reg} (hidle : s.seq = .idle) (hr : r.isReadOnly = false) (v : Word) :
    s.memWrite r.offset 8 v = .ok (s.writeReg r v) := by
  simp [memWrite_offset, hr, hidle, Seq.isBusy]

/-- A register the host may write, other than CMD, takes the value, and the others keep theirs. -/
theorem held_writeReg {r : Reg} (hcmd : r ≠ .cmd) (hr : r.isReadOnly = false) (s : State) (v : Word) (q : Reg) :
    (s.writeReg r v).held q = if q = r then some v else s.held q := by
  cases r with
  | cmd => exact absurd rfl hcmd
  | opa | opb | opc | seed => cases q <;> rfl
  | status | res0 | res1 | res2 | fbufPrime k | fbufPower k => cases hr

/-! ### The obligations -/

/-- Settles O9: `regAt` inverts `Reg.offset`. -/
theorem windowMapIsExact : Obligations.WindowMapIsExact :=
  ⟨fun _ r _ _ => ⟨offset_of_regAt, fun h => h ▸ regAt_offset r⟩, fun r => (offset_aligned r).symm,
    rfl, rfl, rfl, rfl, rfl, rfl, rfl, rfl, rfl, fun _ => ⟨rfl, rfl⟩⟩

/-- Settles O10: an access passes the checks exactly when it is 8 bytes wide at a register's offset, and a write then
fails exactly at a read-only register. -/
theorem busErrorsAreExactlyThese : Obligations.BusErrorsAreExactlyThese := by
  intro s off n v bad
  have hbad : (∃ f, checkAccess off n = .error f) ↔ bad := by
    rw [exists_checkAccess_error_iff, exists_offset_iff]
    simp only [bad]
    omega
  refine ⟨by simpa only [memRead_error] using hbad, ?_⟩
  rw [exists_memWrite_error_iff, hbad, exists_readOnly_offset_iff]
  simp only [bad]
  omega

/-- Settles O14: a permitted read moves the draw counter at most, and no register shows it. -/
theorem readsLeaveTheCoreUnchanged : Obligations.ReadsLeaveTheCoreUnchanged := by
  intro s t off n v h
  obtain ⟨k, rfl⟩ := memRead_snd h
  exact ⟨rfl, rfl, rfl, rfl, fun r _ => held_withDraws s k r⟩

/-- Settles O12: a read of an unspecified register is the next draw in the shape of that register. -/
theorem unspecifiedReadIsADraw : Obligations.UnspecifiedReadIsADraw := by
  intro s r hnone
  refine ⟨_, memRead_offset_of_not_held hnone, fun hr => shape_of_not_fbufPower hr _, ?_⟩
  rintro k rfl
  exact toNat_shape_fbufPower k _

/-- Settles O15: the four registers are writable and are not CMD, so a write while idle is a store. -/
theorem idleWriteStores : Obligations.IdleWriteStores := by
  intro s r v hidle hr
  have hcmd : r ≠ .cmd := by rcases hr with rfl | rfl | rfl | rfl <;> decide
  have hwritable : r.isReadOnly = false := by rcases hr with rfl | rfl | rfl | rfl <;> rfl
  refine ⟨_, memWrite_offset_idle hidle hwritable v, ?_, fun q hq => ?_, ?_⟩
  · rw [held_writeReg hcmd hwritable, if_pos rfl]
  · rw [held_writeReg hcmd hwritable, if_neg (List.ne_of_not_mem_cons hq)]
  · rcases hr with rfl | rfl | rfl | rfl <;> exact ⟨⟨rfl, rfl, rfl⟩, hidle, rfl⟩

end Sys2Proof.Machine
end

section
/-! PROOFS of the statements about the acceptance of a command word (60_exceptions.md R252, R260): what SEQ samples, and
how an ILLEGAL word completes. -/

namespace Sys2Proof.Machine

/-! ### The sampled operands (10_state.md R38, R43; log 15) -/

/-- The draws a read of the register takes while no command can change it: one when its value is unspecified. -/
def State.drawsFor (s : State) (r : Reg) : Nat := if s.held r = none then 1 else 0

/-- A register that no running command writes reads as its value, or as the next draw. -/
theorem readReg_of_not_volatile {r : Reg} (hr : r.isVolatile = false) (s : State) :
    s.readReg r = ((s.held r).getD (Config.freeWord s.draws), { s with draws := s.draws + s.drawsFor r }) := by
  have hshape : ∀ k, r ≠ .fbufPower k := by rintro k rfl; cases hr
  cases hheld : s.held r with
  | none => rw [readReg_of_not_held hheld, shape_of_not_fbufPower hshape]; simp [State.drawsFor, hheld]
  | some v => rw [readReg_of_held (by simp [hr]) hheld]; simp [State.drawsFor, hheld]

@[simp] theorem drawsFor_withDraws (s : State) (n : Nat) (r : Reg) :
    ({ s with draws := n } : State).drawsFor r = s.drawsFor r := by
  simp [State.drawsFor]

theorem sampleOperands_eq (s : State) :
    s.sampleOperands =
      ({ a := (s.held .opa).getD (Config.freeWord s.draws)
         b := (s.held .opb).getD (Config.freeWord (s.draws + s.drawsFor .opa))
         c := (s.held .opc).getD (Config.freeWord (s.draws + s.drawsFor .opa + s.drawsFor .opb)) },
        { s with draws := s.draws + s.drawsFor .opa + s.drawsFor .opb + s.drawsFor .opc }) := by
  have ha : Reg.isVolatile .opa = false := rfl
  have hb : Reg.isVolatile .opb = false := rfl
  have hc : Reg.isVolatile .opc = false := rfl
  simp [State.sampleOperands, readReg_of_not_volatile, ha, hb, hc]

/-! ### Acceptance (60_exceptions.md R260) -/

theorem memWrite_cmd_idle {s : State} (hidle : s.seq = .idle) (w : Word) : s.memWrite 0x000 8 w = .ok (s.accept w) :=
  memWrite_offset_idle (r := .cmd) hidle rfl w

/-- Of the registers, acceptance changes STATUS alone. -/
theorem accept_frame (s : State) (w : Word) :
    SameRegsExcept [.status] s (s.accept w) ∧ (s.accept w).host = s.host ∧ (s.accept w).turns = s.turns ∧
      (s.accept w).status = statusAccepted s.status := by
  obtain ⟨n, hn⟩ := accept_eq s w
  rw [hn]
  refine ⟨fun r hr => ?_, rfl, rfl, rfl⟩
  rw [held_start, if_neg (List.ne_of_not_mem_cons hr), held_withDraws]

theorem accept_seq (s : State) (w : Word) :
    (s.accept w).seq = .busy (decodeCommand w) s.sampleOperands.1 := rfl

/-- A word that is not one of the nine leaves ILLEGAL in SEQ (60_exceptions.md R252). -/
theorem decodeCommand_illegal {w : Word} (hw : w.toNat / 256 ≠ 0 ∨ w.toNat % 256 = 0 ∨ 0x0A ≤ w.toNat % 256) :
    decodeCommand w = none := by
  obtain ⟨-, -, -, -, -, -, -, -, -, hillegal⟩ := Sys2Proof.Laws.everyWordIsOneCommandOrIllegal w
  exact hillegal.mpr hw

theorem step_of_illegal {s : State} {ops : Operands} (h : s.seq = .busy none ops) :
    step s = .next (s.completeError .illegalCmd) := by
  rw [step, h]

/-- Settles O17: acceptance is `start` on the sampled operands, and each operand is read as a register that no command
writes. -/
theorem commandWriteIsAccepted : Obligations.CommandWriteIsAccepted := by
  intro s w hidle drawn
  obtain ⟨hregs, hhost, hturns, hstatus⟩ := accept_frame s w
  have hdraws : (s.accept w).draws = s.draws + drawn .opa + drawn .opb + drawn .opc := by
    change s.sampleOperands.2.draws = _
    rw [sampleOperands_eq]
    rfl
  refine ⟨_, _, memWrite_cmd_idle hidle w, accept_seq s w, ?_, ?_, ?_, hdraws, ?_, ?_, ?_, ?_, ?_, hregs, hhost, hturns⟩
  · rw [sampleOperands_eq]
  · rw [sampleOperands_eq]; rfl
  · rw [sampleOperands_eq]; rfl
  all_goals rw [hstatus]; simp

/-- Settles O18: SEQ holds ILLEGAL after the write, and the step that finds it there is its error completion. -/
theorem illegalWordCompletesAtOnce : Obligations.IllegalWordCompletesAtOnce := by
  intro s w hidle hw
  obtain ⟨hregs, hhost, hturns, hstatus⟩ := accept_frame s w
  have hseq : (s.accept w).seq = .busy none s.sampleOperands.1 := by rw [accept_seq, decodeCommand_illegal hw]
  obtain ⟨hfailed, hframe, houtside⟩ := completeError_spec (s.accept w) .illegalCmd
  refine ⟨_, _, memWrite_cmd_idle hidle w, ⟨_, hseq⟩, step_of_illegal hseq, hfailed, ?_, fun r hr => ?_,
    houtside.host.trans hhost, houtside.turns.trans hturns⟩
  · rw [hfailed.overrun, hstatus, statusOverrun_accepted]
  · rw [hframe r hr, hregs r hr]

end Sys2Proof.Machine
end

section
/-! PROOFS of the statements about one step (10_state.md R38; 30_encoding.md R96; 70_reset_and_hazards.md R280): whose
turn it is, what the host's line does, when a step faults, and what reset leaves. -/

namespace Sys2Proof.Machine

/-! ### The next turn (log 4) -/

theorem nextTurn_of_cons {s : State} {turn : Turn} {rest : List Turn} (h : s.turns = turn :: rest) :
    s.nextTurn = (turn, { s with turns := rest }) := by
  rw [State.nextTurn, h]

theorem nextTurn_of_nil {s : State} (h : s.turns = []) : s.nextTurn = (s.defaultTurn, s) := by
  rw [State.nextTurn, h]

/-- Unless an ILLEGAL completion is pending, a step is the next turn. -/
theorem step_of_not_illegal {s : State} (h : ∀ ops, s.seq ≠ .busy none ops) :
    step s = takeTurn s.nextTurn.1 s.nextTurn.2 := by
  unfold step
  split
  · next ops hops => exact absurd hops (h ops)
  · rfl

theorem Running.not_illegal {i : Instr} {ops : Operands} {s : State} (h : Running i ops s) :
    ∀ ops', s.seq ≠ .busy none ops' := by
  intro ops' hseq
  rw [Running, hseq] at h
  cases h

theorem not_illegal_of_idle {s : State} (h : s.seq = .idle) : ∀ ops, s.seq ≠ .busy none ops := by simp [h]

theorem coreStep_of_running {i : Instr} {ops : Operands} {s : State} (h : Running i ops s) : coreStep s = exec i s := by
  rw [coreStep, h]

theorem hostStep_of_line {s : State} {op : HostOp} (h : s.host.prog[s.host.line]? = some op) :
    hostStep s = s.hostLine op := by
  rw [hostStep, h]

/-- Past its last line and at `halt` the host stays (log 8). -/
theorem hostStep_of_ended {s : State} (h : s.host.prog.length ≤ s.host.line ∨
    s.host.prog[s.host.line]? = some .halt) : hostStep s = .next s := by
  rcases h with hend | hhalt
  · rw [hostStep, List.getElem?_eq_none hend]
  · rw [hostStep_of_line hhalt, State.hostLine]

/-! ### Host lines (30_encoding.md R96) -/

theorem hostWrite_of_ok {s s' : State} {off n : Nat} {v : Word} (h : s.memWrite off n v = .ok s') :
    s.hostWrite off n v = .next s'.nextLine := by
  rw [State.hostWrite, h]

theorem hostWrite_of_error {s : State} {off n : Nat} {v : Word} {f : Fault} (h : s.memWrite off n v = .error f) :
    s.hostWrite off n v = .fault f := by
  rw [State.hostWrite, h]

theorem hostRead_of_ok {s s' : State} {off n : Nat} {v : Word} (h : s.memRead off n = .ok (v, s')) (k : Nat) :
    s.hostRead off n k = .next (s'.setTempNext k v) := by
  rw [State.hostRead, h]

theorem hostRead_of_error {s : State} {off n : Nat} {f : Fault} (h : s.memRead off n = .error f) (k : Nat) :
    s.hostRead off n k = .fault f := by
  rw [State.hostRead, h]

/-- The bus refuses the access that the line makes, with this fault. -/
def HostOp.Refused (op : HostOp) (s : State) (f : Fault) : Prop :=
  ∃ off n, (op.readTarget = some (off, n) ∧ s.memRead off n = .error f) ∨
    (op.writeTarget = some (off, n) ∧ ∀ v, s.memWrite off n v = .error f)

/-- Whether an access is refused does not depend on the state. -/
theorem HostOp.Refused.of_state {op : HostOp} {s s' : State} {f : Fault} (h : op.Refused s f) : op.Refused s' f := by
  obtain ⟨off, n, ⟨htarget, hread⟩ | ⟨htarget, hwrite⟩⟩ := h
  · exact ⟨off, n, .inl ⟨htarget, memRead_error.mpr (memRead_error.mp hread)⟩⟩
  · exact ⟨off, n, .inr ⟨htarget, fun v => memWrite_error (hwrite v)⟩⟩

/-- A line answers a next state, or its access is refused. -/
theorem hostLine_outcome (s : State) (op : HostOp) :
    (∃ t, s.hostLine op = .next t) ∨ ∃ f, s.hostLine op = .fault f ∧ op.Refused s f := by
  have hwrite : ∀ off n v, op.writeTarget = some (off, n) →
      (∃ t, s.hostWrite off n v = .next t) ∨ ∃ f, s.hostWrite off n v = .fault f ∧ op.Refused s f := by
    intro off n v htarget
    cases hw : s.memWrite off n v with
    | ok s' => exact .inl ⟨_, hostWrite_of_ok hw⟩
    | error f => exact .inr ⟨f, hostWrite_of_error hw, off, n, .inr ⟨htarget, fun v => memWrite_error hw⟩⟩
  have hread : ∀ off n k, op.readTarget = some (off, n) →
      (∃ t, s.hostRead off n k = .next t) ∨ ∃ f, s.hostRead off n k = .fault f ∧ op.Refused s f := by
    intro off n k htarget
    cases hr : s.memRead off n with
    | ok p => exact .inl ⟨_, hostRead_of_ok hr k⟩
    | error f => exact .inr ⟨f, hostRead_of_error hr k, off, n, .inl ⟨htarget, hr⟩⟩
  cases op with
  | wr r v => exact hwrite _ _ _ rfl
  | cmd i => exact hwrite _ _ _ rfl
  | memWrite off n v => exact hwrite _ _ _ rfl
  | rd r k => exact hread _ _ _ rfl
  | memRead off n k => exact hread _ _ _ rfl
  | bnz k bit target | bz k bit target | halt => exact .inl ⟨_, rfl⟩

theorem hostStep_outcome (s : State) :
    (∃ t, hostStep s = .next t) ∨ ∃ f, hostStep s = .fault f ∧
      ∃ op, s.host.prog[s.host.line]? = some op ∧ op.Refused s f := by
  cases hop : s.host.prog[s.host.line]? with
  | none => exact .inl ⟨s, hostStep_of_ended (.inl (List.getElem?_eq_none_iff.mp hop))⟩
  | some op =>
    rw [hostStep_of_line hop]
    exact (hostLine_outcome s op).imp_right fun ⟨f, hf, hrefused⟩ => ⟨f, hf, op, rfl, hrefused⟩

theorem coreStep_next (s : State) : ∃ t, coreStep s = .next t := by
  unfold coreStep
  split
  · exact ⟨_, rfl⟩
  · exact ⟨_, rfl⟩
  · exact exec_next _ s

/-- A step answers a next state, or the host moves and its line's access is refused. -/
theorem step_outcome (s : State) :
    (∃ t, step s = .next t) ∨ ∃ f, step s = .fault f ∧ s.nextTurn.1 = .host ∧
      ∃ op, s.host.prog[s.host.line]? = some op ∧ op.Refused s f := by
  by_cases hillegal : ∃ ops, s.seq = .busy none ops
  · obtain ⟨ops, hops⟩ := hillegal
    exact .inl ⟨_, step_of_illegal hops⟩
  · obtain ⟨l, hl⟩ := nextTurn_snd s
    rw [step_of_not_illegal (not_exists.mp hillegal), hl]
    cases hturn : s.nextTurn.1 with
    | reset => exact .inl ⟨_, rfl⟩
    | core => exact .inl (coreStep_next _)
    | host =>
      exact (hostStep_outcome { s with turns := l }).imp_right fun ⟨f, hf, op, hop, hrefused⟩ =>
        ⟨f, hf, rfl, op, hop, hrefused.of_state⟩

/-! ### The obligations -/

/-- Settles O4: no ILLEGAL completion is pending, and the core's turn runs the command. -/
theorem coreTurnRunsTheCommand : Obligations.CoreTurnRunsTheCommand := by
  intro s i ops hrun
  have hdefault : s.defaultTurn = .core := by simp [State.defaultTurn, show s.seq = _ from hrun, Seq.isBusy]
  refine ⟨fun rest hturns => ?_, fun hturns => ?_⟩
  · rw [step_of_not_illegal hrun.not_illegal, nextTurn_of_cons hturns]
    exact coreStep_of_running (ops := ops) hrun
  · rw [step_of_not_illegal hrun.not_illegal, nextTurn_of_nil hturns, hdefault]
    exact coreStep_of_running hrun

/-- Settles O5: placing a word starts its command with a core turn first in the schedule. -/
theorem placedWordRunsNext : Obligations.PlacedWordRunsNext := by
  intro s w i hdecode
  have hcmd : decodeCommand (tableWord 64 w) = some i := by rw [← Sys2Proof.Laws.decodeTableWord_eq, hdecode]
  have hrun : Running i { a := s.opa, b := s.opb, c := s.opc } (s.withFetchWord 64 w) := by
    rw [Running, ← hcmd]
    rfl
  refine ⟨_, (coreTurnRunsTheCommand _ _ _ hrun).1 s.turns rfl, hrun, fun r hr => ?_, ⟨rfl, rfl, rfl⟩⟩
  change ((s.start _ _).held r) = _
  rw [held_start, if_neg (List.ne_of_not_mem_cons hr)]

/-- Settles O6: no arm of `exec` answers anything but a next state. -/
theorem commandsNeverStop : Obligations.CommandsNeverStop := exec_next

/-- Settles O7: of all turns only the host's can fault, at an access that the bus refuses. -/
theorem onlyRefusedAccessesFault : Obligations.OnlyRefusedAccessesFault := by
  intro s
  rcases step_outcome s with ⟨t, ht⟩ | ⟨g, hg, hturn, op, hop, hrefused⟩
  · rw [ht]
    exact ⟨fun _ => nofun, fun _ => nofun⟩
  · rw [hg]
    refine ⟨fun _ => nofun, fun f hf => ⟨hturn, ?_⟩⟩
    cases hf
    obtain ⟨off, n, haccess⟩ := hrefused
    exact ⟨op, off, n, hop, haccess⟩

/-- The step of a reset turn, unless an ILLEGAL completion is pending. -/
theorem step_of_reset {s : State} {rest : List Turn} (hturns : s.turns = .reset :: rest)
    (h : ∀ ops, s.seq ≠ .busy none ops) : step s = .next ({ s with turns := rest } : State).assertReset := by
  rw [step_of_not_illegal h, nextTurn_of_cons hturns]
  rfl

/-- Settles O47: a reset turn is `assertReset`; the completion of an ILLEGAL word leaves it the next turn. -/
theorem resetAbandonsTheCommand : Obligations.ResetAbandonsTheCommand := by
  intro s rest hturns
  refine ⟨fun hseq => ?_, fun ops hops => ?_⟩
  · have hlegal : ∀ ops, s.seq ≠ .busy none ops := by
      rcases hseq with hidle | ⟨i, ops, hrun⟩
      · exact not_illegal_of_idle hidle
      · exact hrun.not_illegal
    exact ⟨_, step_of_reset hturns hlegal, rfl, fun r _ => held_assertReset _ r, rfl, rfl⟩
  · exact ⟨_, _, step_of_illegal hops, step_of_reset (s := s.completeError .illegalCmd) hturns (not_illegal_of_idle rfl),
      rfl, fun r _ => held_assertReset _ r, rfl, rfl⟩

/-- Settles O54: the temporary is set, so the branch reads its value, and `goTo` is all it does. -/
theorem hostBranches : Obligations.HostBranches := by
  intro s t bit target v htemp
  have hread : s.readTemp t = (v, s) := by rw [State.readTemp, htemp]
  simp only [State.hostLine, State.hostBranch, hread, State.nextLine]
  cases v.getLsbD bit <;> exact ⟨rfl, rfl⟩

/-- What a read of the window does to the host's temporaries and position. -/
theorem exists_setTempNext_eq {s s' : State} (hhost : s'.host = s.host) (t : Nat) (v : Word) :
    ∃ temps, s'.setTempNext t v = { s' with host := { s.host with temps := temps, line := s.host.line + 1 } } ∧
      getTemp t temps = some v ∧ ∀ u, u ≠ t → getTemp u temps = getTemp u s.host.temps := by
  refine ⟨setTemp t v s.host.temps, by rw [State.setTempNext, hhost], ?_, fun u hu => ?_⟩
  · rw [getTemp_setTemp, if_pos rfl]
  · rw [getTemp_setTemp, if_neg hu]

/-- Settles O55: `hostWrite` and `hostRead` are one access each, and an access leaves the host agent alone. -/
theorem hostLinesAreOneAccess : Obligations.HostLinesAreOneAccess := by
  intro s
  refine ⟨fun off n v => ⟨fun s' h => ?_, fun f h => hostWrite_of_error h⟩, fun r v => rfl, fun i => rfl,
    fun off n t => ⟨fun v s' h => ?_, fun f h => hostRead_of_error h t⟩, fun r t => ?_⟩
  · rw [State.hostLine, hostWrite_of_ok h, State.nextLine, State.goTo, memWrite_host h]
  · obtain ⟨temps, htemps, hget⟩ := exists_setTempNext_eq (memRead_host h) t v
    exact ⟨temps, by rw [State.hostLine, hostRead_of_ok h, htemps], hget⟩
  · have h : s.memRead r.offset 8 = .ok ((s.readReg r).1, (s.readReg r).2) := memRead_offset s r
    obtain ⟨temps, htemps, hget⟩ := exists_setTempNext_eq (memRead_host h) t (s.readReg r).1
    exact ⟨temps, by rw [State.hostLine, hostRead_of_ok h, htemps], hget⟩

/-- Settles O56: the host's turn is `hostStep`, which performs the line at `host.line`. -/
theorem hostTurnRunsTheLine : Obligations.HostTurnRunsTheLine := by
  intro s op hop hlegal
  refine ⟨fun rest hturns => ?_, fun hturns hidle => ?_⟩
  · rw [step_of_not_illegal hlegal, nextTurn_of_cons hturns]
    exact hostStep_of_line (s := { s with turns := rest }) hop
  · have hdefault : s.defaultTurn = .host := by simp [State.defaultTurn, hidle, Seq.isBusy]
    rw [step_of_not_illegal hlegal, nextTurn_of_nil hturns, hdefault]
    exact hostStep_of_line hop

end Sys2Proof.Machine
end

section
/-! PROOFS of the statements about the whole machine (10_state.md R31 to R38; 60_exceptions.md R270). What a command's
core turn and what one step can do is said once, as a list of effects; the frames and the invariant follow by cases. -/

namespace Sys2Proof.Machine

/-! ### What a core turn can do -/

/-- The commands and operands that end with MOD_ZERO (60_exceptions.md R253). -/
def ZeroModulus (i : Instr) (ops : Operands) : Prop :=
  (i = .mulmod ∧ ops.c = 0) ∨ (i = .powmod ∧ ops.c = 0) ∨ (i = .rho ∧ ops.a = 0)

/-- What the core turn of a command makes of the state. -/
inductive CoreEffect (s : State) : Instr → State → Prop
  /-- A command that gives one result. -/
  | result {i : Instr} (hi : i ≠ .factor) (hmodulus : ¬ ZeroModulus i s.operands) (v : Word) :
      CoreEffect s i (s.finishRes0 (.ok v))
  /-- A modulus of 0. -/
  | zeroModulus {i : Instr} (h : ZeroModulus i s.operands) : CoreEffect s i (s.completeError .modZero)
  /-- SQPOW gives three results. -/
  | results (v0 v1 v2 : Word) : CoreEffect s .sqpow (s.finishResults v0 v1 v2)
  /-- A command that also writes SEED. -/
  | seedResult {i : Instr} (hi : i = .xshift ∨ i = .rho) (hmodulus : ¬ ZeroModulus i s.operands) (seed v : Word) :
      CoreEffect s i ((s.setSeed seed).finishRes0 (.ok v))
  /-- FACTOR does what its driver answers. -/
  | factor : CoreEffect s .factor
      (s.finishFactor (factorF Config.rhoRetryLimit s.rhoBudget s.operands.a.toNat s.seed))

/-- A checked modulus gives the result or MOD_ZERO. -/
theorem coreEffect_checkModulus {i : Instr} {s : State} (hi : i = .mulmod ∨ i = .powmod) (v : Word) :
    CoreEffect s i (s.finishRes0 (checkModulus s.operands.c v)) := by
  by_cases hc : s.operands.c = 0
  · rw [hc, finishRes0_checkModulus_zero]
    refine .zeroModulus ?_
    rcases hi with rfl | rfl
    · exact .inl ⟨rfl, hc⟩
    · exact .inr (.inl ⟨rfl, hc⟩)
  · rw [finishRes0_checkModulus_ne_zero hc]
    refine .result ?_ ?_ v
    · rcases hi with rfl | rfl <;> decide
    · rcases hi with rfl | rfl <;> simpa [ZeroModulus] using hc

theorem coreEffect_of_exec {i : Instr} {s t : State} (h : exec i s = .next t) : CoreEffect s i t := by
  cases i with
  | mulmod => cases h; exact coreEffect_checkModulus (.inl rfl) _
  | powmod => cases h; exact coreEffect_checkModulus (.inr rfl) _
  | isprime | isqrt | gcd => cases h; exact .result (by decide) (by simp [ZeroModulus]) _
  | sqpow => cases h; exact .results _ _ _
  | xshift => cases h; exact .seedResult (.inl rfl) (by simp [ZeroModulus]) _ _
  | rho =>
    simp only [exec, execRho] at h
    split at h
    · next hzero => cases h; exact .zeroModulus (.inr (.inr ⟨rfl, hzero⟩))
    · next hzero => cases h; exact .seedResult (.inr rfl) (by simpa [ZeroModulus] using hzero) _ _
  | factor => cases h; exact .factor

/-! ### What one step can do -/

/-- What a step makes of the state. `l` is the schedule after the turn is taken. -/
inductive StepEffect (s : State) : State → Prop
  /-- The completion of an ILLEGAL word. -/
  | illegal {ops : Operands} (h : s.seq = .busy none ops) : StepEffect s (s.completeError .illegalCmd)
  /-- A reset. -/
  | reset (l : List Turn) (h : s.resetNext) : StepEffect s ({ s with turns := l } : State).assertReset
  /-- A command's core turn. -/
  | command {i : Instr} {ops : Operands} {t : State} (l : List Turn) (hturn : s.nextTurn.1 = .core)
      (hrun : Running i ops s) (heffect : CoreEffect { s with turns := l } i t) : StepEffect s t
  /-- A host write that is dropped (20_memory.md R70). -/
  | dropped (l : List Turn) (line : Nat) {r : Reg} (h : s.seq.isBusy = true) (hnext : s.hostWritesNext r) :
      StepEffect s { s with status := statusOverran s.status, turns := l, host := { s.host with line := line } }
  /-- A host write that is performed (20_memory.md R65). -/
  | write (l : List Turn) {r : Reg} (v : Word) (hidle : s.seq = .idle) (hnext : s.hostWritesNext r)
      (hr : r.isReadOnly = false) : StepEffect s (({ s with turns := l } : State).writeReg r v).nextLine
  /-- A step that leaves the CORE alone. -/
  | quiet (n : Nat) (l : List Turn) (host : HostAgent)
      (htemps : tempsRising s.host.temps = true → tempsRising host.temps = true) :
      StepEffect s { s with draws := n, turns := l, host := host }

theorem seq_eq_idle_of_not_busy {s : State} (h : s.seq.isBusy = false) : s.seq = .idle := by
  cases hs : s.seq with
  | idle => rfl
  | busy cmd ops => rw [hs] at h; cases h

/-- What a line of the host program can do, when the host moves next. -/
theorem stepEffect_of_hostLine {s t : State} {l : List Turn} {op : HostOp} (hturn : s.nextTurn.1 = .host)
    (hop : s.host.prog[s.host.line]? = some op) (h : ({ s with turns := l } : State).hostLine op = .next t) :
    StepEffect s t := by
  rcases hostLine_cases h with ⟨off, n, v, s', hw, rfl, htarget⟩ | ⟨off, n, k, v, s', hr, rfl, -⟩ | ⟨n, line, rfl⟩ | rfl
  · obtain ⟨r, hcheck, hro, heffect⟩ := memWrite_cases hw
    obtain ⟨rfl, rfl⟩ := checkAccess_eq_ok_iff.mp hcheck
    have hnext : s.hostWritesNext r := ⟨hturn, op, hop, htarget⟩
    rcases heffect with ⟨hbusy, rfl⟩ | ⟨hidle, rfl⟩
    · exact .dropped l _ hbusy hnext
    · exact .write l v (seq_eq_idle_of_not_busy hidle) hnext hro
  · obtain ⟨n, rfl⟩ := memRead_snd hr
    exact .quiet n l { s.host with temps := setTemp k v s.host.temps, line := s.host.line + 1 } (tempsRising_setTemp k v _)
  · exact .quiet n l { s.host with line := line } id
  · exact .quiet s.draws l s.host id

theorem stepEffect_of_step {s t : State} (h : step s = .next t) : StepEffect s t := by
  rcases step_cases h with ⟨ops, hops, rfl⟩ | ⟨l, -, ⟨hturn, rfl⟩ | ⟨-, -, rfl⟩ | ⟨hturn, i, ops, hrun, hexec⟩ |
    ⟨-, -, rfl⟩ | ⟨hturn, op, hop, hline⟩⟩
  · exact .illegal hops
  · exact .reset l hturn
  · exact .quiet s.draws l s.host id
  · exact .command l hturn hrun (coreEffect_of_exec hexec)
  · exact .quiet s.draws l s.host id
  · exact stepEffect_of_hostLine hturn hop hline

/-! ### Frames (30_encoding.md R93) -/

/-- The registers besides STATUS that the core turn of a command may change. -/
def Writes : Instr → Reg → Prop
  | .sqpow, r => r = .res0 ∨ r = .res1 ∨ r = .res2
  | .xshift, r | .rho, r => r = .res0 ∨ r = .seed
  | .factor, r => r = .res0 ∨ r = .seed ∨ ∃ k, r = .fbufPrime k ∨ r = .fbufPower k
  | .mulmod, r | .powmod, r | .isprime, r | .isqrt, r | .gcd, r => r = .res0

/-- RES0 is among the registers that every command may write. -/
theorem writes_res0 (i : Instr) : Writes i .res0 := by
  cases i <;> simp [Writes]

theorem succeeded_finishFactor (s : State) (d : Driver) : Succeeded s (s.finishFactor (.ok d)) :=
  succeeded_of rfl (by simp [State.finishFactor])

theorem failed_finishFactor (s : State) (code : ErrCode) (seed : Word) :
    Failed code s (s.finishFactor (.error (.error code seed))) :=
  failed_of rfl (by simp [State.finishFactor])

theorem held_finishFactor {s : State} {r : Reg} (hstatus : r ≠ .status) (hr : ¬ Writes .factor r)
    (answer : Except DriverStop Driver) : (s.finishFactor answer).held r = s.held r := by
  simp only [Writes, not_or, not_exists] at hr
  obtain ⟨hres0, hseed, hfbuf⟩ := hr
  cases answer with
  | ok d => simp [State.finishFactor, held_complete, held_setRes0, held_setSeed, held_setFbuf_of_not_fbuf, *]
  | error stop =>
    cases stop with
    | error code seed =>
      simp [State.finishFactor, held_completeError, held_setSeed, held_forgetFbuf_of_not_fbuf, *]
    | spent => exact held_withCoreTurns s _ r

theorem CoreEffect.held_eq {i : Instr} {s t : State} {r : Reg} (h : CoreEffect s i t) (hstatus : r ≠ .status)
    (hr : ¬ Writes i r) : t.held r = s.held r := by
  have hres0 : r ≠ .res0 := by rintro rfl; exact hr (writes_res0 i)
  cases h with
  | result hi hmodulus v => simp [State.finishRes0, held_complete, held_setRes0, *]
  | zeroModulus h => simp [held_completeError, hstatus]
  | results v0 v1 v2 =>
    simp only [Writes, not_or] at hr
    simp [State.finishResults, held_complete, held_setRes0, held_setRes1, held_setRes2, *]
  | seedResult hi hmodulus seed v =>
    have hseed : r ≠ .seed := by rintro rfl; rcases hi with rfl | rfl <;> simp [Writes] at hr
    simp [State.finishRes0, held_complete, held_setRes0, held_setSeed, *]
  | factor => exact held_finishFactor hstatus hr _

/-- Of the registers but STATUS, a host write changes the one it names. -/
theorem held_writeReg_ne {r q : Reg} (hr : r.isReadOnly = false) (hstatus : q ≠ .status) (hq : q ≠ r) (s : State)
    (v : Word) : (s.writeReg r v).held q = s.held q := by
  by_cases hcmd : r = .cmd
  · subst hcmd
    exact (accept_frame s v).1 q (by simpa using hstatus)
  · rw [held_writeReg hcmd hr, if_neg hq]

/-- Who can change what a register but STATUS holds. -/
theorem StepEffect.of_held_ne {s t : State} {r : Reg} (h : StepEffect s t) (hstatus : r ≠ .status)
    (hne : t.held r ≠ s.held r) :
    s.resetNext ∨ (∃ i, s.runsNext i ∧ Writes i r) ∨ (r.isReadOnly = false ∧ s.seq = .idle ∧ s.hostWritesNext r) := by
  cases h with
  | illegal hops => exact absurd (by rw [held_completeError, if_neg hstatus]) hne
  | reset l hnext => exact .inl hnext
  | command l hturn hrun heffect =>
    refine .inr (.inl ⟨_, ⟨hturn, _, hrun⟩, ?_⟩)
    by_contra hwrites
    exact hne ((heffect.held_eq hstatus hwrites).trans (held_withTurns s l r))
  | dropped l line hbusy hnext =>
    refine absurd ?_ hne
    exact (held_withStatus s _ r).trans (if_neg hstatus)
  | @write l q v hidle hnext hro =>
    by_cases hq : r = q
    · subst hq
      exact .inr (.inr ⟨hro, hidle, hnext⟩)
    · refine absurd ?_ hne
      rw [held_nextLine, held_writeReg_ne hro hstatus hq, held_withTurns]
  | quiet n l host htemps => exact absurd (by cases r <;> rfl) hne

/-- Settles O51: of the commands RHO, FACTOR and XSHIFT write SEED. -/
theorem onlyTheseChangeSeed : Obligations.OnlyTheseChangeSeed := by
  intro s t hstep hne
  rcases (stepEffect_of_step hstep).of_held_ne (by decide) hne with hreset | ⟨i, hrun, hwrites⟩ | ⟨-, hidle, hwrite⟩
  · exact .inr (.inr (.inr (.inr hreset)))
  · cases i with
    | rho => exact .inl hrun
    | factor => exact .inr (.inl hrun)
    | xshift => exact .inr (.inr (.inl hrun))
    | _ => simp [Writes] at hwrites
  · exact .inr (.inr (.inr (.inl ⟨hidle, hwrite⟩)))

/-- Settles O52: no command writes OPA, OPB or OPC. -/
theorem onlyHostAndResetChangeOperands : Obligations.OnlyHostAndResetChangeOperands := by
  intro s t r hr hstep hne
  have hstatus : r ≠ .status := by rcases hr with rfl | rfl | rfl <;> decide
  rcases (stepEffect_of_step hstep).of_held_ne hstatus hne with hreset | ⟨i, hrun, hwrites⟩ | ⟨-, hwrite⟩
  · exact .inr hreset
  · rcases hr with rfl | rfl | rfl <;> cases i <;> simp [Writes] at hwrites
  · exact .inl hwrite

/-- Who can change what a read-only register but STATUS holds. -/
theorem StepEffect.of_readOnly_held_ne {s t : State} {r : Reg} (h : StepEffect s t) (hstatus : r ≠ .status)
    (hro : r.isReadOnly = true) (hne : t.held r ≠ s.held r) : s.resetNext ∨ ∃ i, s.runsNext i ∧ Writes i r := by
  rcases h.of_held_ne hstatus hne with hreset | hrun | ⟨hwritable, -⟩
  · exact .inl hreset
  · exact .inr hrun
  · rw [hro] at hwritable
    cases hwritable

/-- Settles O53: the results are read-only; of the commands SQPOW writes RES1 and RES2, and FACTOR writes FBUF. -/
theorem onlyTheseChangeResults : Obligations.OnlyTheseChangeResults := by
  intro s t hstep
  have heffect := stepEffect_of_step hstep
  have hsqpow : ∀ r, r = .res1 ∨ r = .res2 → t.held r ≠ s.held r → s.runsNext .sqpow ∨ s.resetNext := by
    intro r hr hne
    rcases heffect.of_readOnly_held_ne (by rcases hr with rfl | rfl <;> decide)
      (by rcases hr with rfl | rfl <;> rfl) hne with hreset | ⟨i, hrun, hwrites⟩
    · exact .inr hreset
    · cases i with
      | sqpow => exact .inl hrun
      | _ => rcases hr with rfl | rfl <;> simp [Writes] at hwrites
  have hfactor : ∀ k r, r = .fbufPrime k ∨ r = .fbufPower k → t.held r ≠ s.held r →
      s.runsNext .factor ∨ s.resetNext := by
    intro k r hr hne
    rcases heffect.of_readOnly_held_ne (by rcases hr with rfl | rfl <;> simp)
      (by rcases hr with rfl | rfl <;> rfl) hne with hreset | ⟨i, hrun, hwrites⟩
    · exact .inr hreset
    · cases i with
      | factor => exact .inl hrun
      | _ => rcases hr with rfl | rfl <;> simp [Writes] at hwrites
  refine ⟨fun h => h.elim (hsqpow _ (.inl rfl)) (hsqpow _ (.inr rfl)), fun k h =>
    h.elim (hfactor k _ (.inl rfl)) (hfactor k _ (.inr rfl)), fun hne => ?_⟩
  rcases heffect.of_readOnly_held_ne (by decide) rfl hne with hreset | ⟨i, hrun, -⟩
  · exact .inr hreset
  · exact .inl ⟨i, hrun⟩

theorem not_hostWritesNext {s : State}
    (h : s.nextTurn.1 = .host → ∀ op, s.host.prog[s.host.line]? = some op → op.writeTarget = none) (r : Reg) :
    ¬ s.hostWritesNext r := by
  rintro ⟨hturn, op, hop, htarget⟩
  rw [h hturn op hop] at htarget
  cases htarget

/-- Settles O8: of the effects of a step only the quiet one meets the hypotheses, and it changes no part of the CORE. -/
theorem idleCoreHoldsItsState : Obligations.IdleCoreHoldsItsState := by
  refine ⟨fun s t hstep hlegal hreset hcore hline => ?_, fun s hlegal => ⟨fun hidle rest hturns => ?_, fun hended =>
    ⟨fun rest hturns => ?_, fun hidle hturns => ?_⟩⟩⟩
  · cases stepEffect_of_step hstep with
    | illegal hops => exact absurd hops (hlegal _)
    | reset l hnext => exact absurd hnext hreset
    | command l hturn hrun heffect => exact absurd ((hcore hturn).symm.trans hrun) (by simp)
    | dropped l line hbusy hnext => exact absurd hnext (not_hostWritesNext hline _)
    | write l v hidle hnext hro => exact absurd hnext (not_hostWritesNext hline _)
    | quiet n l host htemps => exact ⟨rfl, rfl, fun r _ => by cases r <;> rfl⟩
  · rw [step_of_not_illegal hlegal, nextTurn_of_cons hturns]
    simp [takeTurn, coreStep, hidle]
  · rw [step_of_not_illegal hlegal, nextTurn_of_cons hturns]
    exact hostStep_of_ended (s := { s with turns := rest }) hended
  · have hdefault : s.defaultTurn = .host := by simp [State.defaultTurn, hidle, Seq.isBusy]
    rw [step_of_not_illegal hlegal, nextTurn_of_nil hturns, hdefault]
    exact hostStep_of_ended hended

/-! ### The invariant (10_state.md R34, R38) -/

/-- A command that has completed leaves a resting state. -/
theorem MachineInv.of_completed {s t : State} (h : MachineInv s) (hseq : t.seq = .idle)
    (hbusy : statusBusy t.status = false) (hdone : statusDone t.status = true)
    (hreserved : t.status &&& statusReservedMask = s.status &&& statusReservedMask)
    (hnoError : statusErr t.status = false → statusErrCode t.status = 0)
    (hsomeError : statusErr t.status = true → ∃ code : ErrCode, statusErrCode t.status = code.number)
    (hcoreTurns : t.coreTurns = 0) (hhost : t.host = s.host) : MachineInv t where
  busy := by rw [hbusy, hseq]; rfl
  reserved := hreserved.trans h.reserved
  running hb := by rw [hseq] at hb; cases hb
  resting _ := .inr hdone
  noError := hnoError
  someError := hsomeError
  sampled cmd ops hs := by rw [hseq] at hs; cases hs
  waits hne := absurd hcoreTurns hne
  temps := hhost ▸ h.temps

theorem MachineInv.of_succeeded {s t : State} (h : MachineInv s) (hdone : Succeeded s t) (hcoreTurns : t.coreTurns = 0)
    (hhost : t.host = s.host) : MachineInv t :=
  h.of_completed hdone.seq hdone.busy hdone.done hdone.reserved (fun _ => hdone.errCode)
    (fun herr => by rw [hdone.err] at herr; cases herr) hcoreTurns hhost

theorem MachineInv.of_failed {s t : State} {code : ErrCode} (h : MachineInv s) (hfail : Failed code s t)
    (hcoreTurns : t.coreTurns = 0) (hhost : t.host = s.host) : MachineInv t :=
  h.of_completed hfail.seq hfail.busy hfail.done hfail.reserved
    (fun herr => by rw [hfail.err] at herr; cases herr) (fun _ => ⟨code, hfail.errCode⟩) hcoreTurns hhost

/-- The draws, the schedule and the host agent's position are under no law. -/
theorem MachineInv.quiet {s : State} (h : MachineInv s) (n : Nat) (l : List Turn) {host : HostAgent}
    (htemps : tempsRising s.host.temps = true → tempsRising host.temps = true) :
    MachineInv { s with draws := n, turns := l, host := host } :=
  ⟨h.busy, h.reserved, h.running, h.resting, h.noError, h.someError, h.sampled, h.waits, htemps h.temps⟩

theorem MachineInv.finishFactor {s : State} {ops : Operands} (h : MachineInv s) (hrun : Running .factor ops s)
    (answer : Except DriverStop Driver) : MachineInv (s.finishFactor answer) := by
  cases answer with
  | ok d =>
    exact h.of_succeeded (succeeded_finishFactor s d) (by simp [State.finishFactor])
      (by simp [State.finishFactor])
  | error stop =>
    cases stop with
    | error code seed =>
      exact h.of_failed (failed_finishFactor s code seed) (by simp [State.finishFactor])
        (by simp [State.finishFactor])
    | spent =>
      exact ⟨h.busy, h.reserved, h.running, h.resting, h.noError, h.someError, h.sampled, fun _ => ⟨ops, hrun⟩, h.temps⟩

theorem MachineInv.command {i : Instr} {ops : Operands} {s t : State} (h : MachineInv s) (hrun : Running i ops s)
    (heffect : CoreEffect s i t) : MachineInv t := by
  cases heffect with
  | result hi hmodulus v => exact h.of_succeeded (finishRes0_ok s v).1 rfl rfl
  | zeroModulus => exact h.of_failed (completeError_spec s .modZero).1 rfl rfl
  | results v0 v1 v2 => exact h.of_succeeded (finishResults_spec s v0 v1 v2).1 rfl rfl
  | seedResult hi hmodulus seed v => exact h.of_succeeded (setSeed_finishRes0_ok s seed v).1 rfl rfl
  | factor => exact h.finishFactor hrun _

/-- A dropped write sets OVERRUN alone. -/
theorem MachineInv.dropped {s : State} (h : MachineInv s) (hbusy : s.seq.isBusy = true) (l : List Turn) (line : Nat) :
    MachineInv { s with status := statusOverran s.status, turns := l, host := { s.host with line := line } } where
  busy := (statusBusy_overran _).trans h.busy
  reserved := (statusReserved_overran _).trans h.reserved
  running hb := by
    rw [statusDone_overran, statusErr_overran, statusErrCode_overran]
    exact h.running hb
  resting hb := by
    rw [hbusy] at hb
    cases hb
  noError herr := by
    rw [statusErr_overran] at herr
    rw [statusErrCode_overran]
    exact h.noError herr
  someError herr := by
    rw [statusErr_overran] at herr
    simp only [statusErrCode_overran]
    exact h.someError herr
  sampled := h.sampled
  waits := h.waits
  temps := h.temps

/-- What SEQ samples of a specified operand register is what it stores. -/
theorem getD_unlessUnspecified {flag : Bool} (h : flag = false) (v w : Word) :
    (unlessUnspecified flag v).getD w = v := by
  rw [h]
  rfl

theorem MachineInv.accept {s : State} (h : MachineInv s) (w : Word) : MachineInv (s.accept w) := by
  obtain ⟨n, hn⟩ := accept_eq s w
  rw [hn, sampleOperands_eq]
  exact {
    busy := statusBusy_accepted _
    reserved := (statusReserved_accepted _).trans h.reserved
    running := fun _ => ⟨statusDone_accepted _, statusErr_accepted _, statusErrCode_accepted _⟩
    resting := nofun
    noError := fun _ => statusErrCode_accepted _
    someError := fun herr => by simp at herr
    sampled := by
      rintro cmd ops ⟨⟩
      exact ⟨fun hflag => getD_unlessUnspecified hflag _ _, fun hflag => getD_unlessUnspecified hflag _ _,
        fun hflag => getD_unlessUnspecified hflag _ _⟩
    waits := fun hne => absurd rfl hne
    temps := h.temps }

theorem MachineInv.writeReg {s : State} (h : MachineInv s) (hidle : s.seq = .idle) (r : Reg) (v : Word) :
    MachineInv (s.writeReg r v) := by
  have hsampled : ∀ cmd ops, s.seq ≠ .busy cmd ops := by simp [hidle]
  cases r with
  | cmd => exact h.accept v
  | opa | opb | opc | seed =>
    exact ⟨h.busy, h.reserved, h.running, h.resting, h.noError, h.someError,
      fun cmd ops hs => absurd hs (hsampled cmd ops), h.waits, h.temps⟩
  | status | res0 | res1 | res2 | fbufPrime | fbufPower => exact h

/-- No command has run and SEQ is idle. -/
theorem machineInv_of_reset {t : State} (hseq : t.seq = .idle) (hstatus : t.status = 0) (hcoreTurns : t.coreTurns = 0)
    (htemps : tempsRising t.host.temps = true) : MachineInv t where
  busy := by rw [hstatus, hseq]; decide
  reserved := by rw [hstatus]; decide
  running hb := by rw [hseq] at hb; cases hb
  resting _ := .inl hstatus
  noError _ := by rw [hstatus]; decide
  someError herr := by rw [hstatus] at herr; exact absurd herr (by decide)
  sampled cmd ops hs := by rw [hseq] at hs; cases hs
  waits hne := absurd hcoreTurns hne
  temps := htemps

/-- Settles O49: each effect of a step keeps the invariant. -/
theorem stepKeepsInvariant : Obligations.StepKeepsInvariant := by
  intro s t hinv hstep
  cases stepEffect_of_step hstep with
  | illegal hops => exact hinv.of_failed (completeError_spec s .illegalCmd).1 rfl rfl
  | reset l hnext => exact machineInv_of_reset rfl rfl rfl hinv.temps
  | command l hturn hrun heffect =>
    have hturns : MachineInv { s with turns := l } := hinv.quiet s.draws l id
    exact hturns.command hrun heffect
  | dropped l line hbusy hnext => exact hinv.dropped hbusy l line
  | @write l r v hidle hnext hro =>
    have hturns : MachineInv { s with turns := l } := hinv.quiet s.draws l id
    have hwritten : MachineInv (({ s with turns := l } : State).writeReg r v) := hturns.writeReg hidle r v
    exact hwritten.quiet _ _ id
  | quiet n l host htemps => exact hinv.quiet n l htemps

/-- Settles O48: STATUS is 0, SEQ is idle, and every FBUF word is unspecified. -/
theorem resetMeetsInvariant : Obligations.ResetMeetsInvariant := by
  refine ⟨machineInv_of_reset rfl rfl rfl rfl, fun k hspecified => ?_⟩
  have hflag : State.reset.unspecified.fbuf[k.val] = true := atReset_fbuf_getElem k
  rw [hflag] at hspecified
  cases hspecified

/-- Settles O21: only FACTOR can go on after its core turn. -/
theorem everyCommandButFactorCompletes : Obligations.EveryCommandButFactorCompletes := by
  intro s i ops hrun hi
  obtain ⟨t, ht⟩ := exec_next i s
  refine ⟨t, ht, ?_⟩
  cases coreEffect_of_exec ht with
  | factor => exact absurd rfl hi
  | result | zeroModulus | results | seedResult => rfl

end Sys2Proof.Machine
end

section
/-! PROOFS of the statements about the primality tester (41_primality.md). Trial division by the bases is exact where a
base divides or n is below 1369; from there on the witness test is Miller-Rabin's, and no prime fails it. -/

namespace Sys2Proof.Machine

/-! ### Steps 1 and 2 (41_primality.md R142) -/

theorem prime_of_mem_bases {w : Nat} (hw : w ∈ Config.bases) : w.Prime := by
  simp only [Config.bases, List.mem_cons, List.not_mem_nil, or_false] at hw
  rcases hw with rfl | rfl | rfl | rfl | rfl | rfl | rfl | rfl | rfl | rfl | rfl | rfl <;> norm_num

/-- A base that divides `n` decides: `n` is that base or composite. -/
theorem isprimeF_of_base {n : Nat} (h : ∃ w ∈ Config.bases, w ∣ n) : isprimeF n = true ↔ n ∈ Config.bases := by
  unfold isprimeF
  split
  · next w hfind =>
    have hdvd : w ∣ n := Nat.dvd_of_mod_eq_zero (by simpa using List.find?_some hfind)
    rw [beq_iff_eq]
    constructor
    · rintro rfl
      exact List.mem_of_find?_eq_some hfind
    · intro hn
      exact ((Nat.prime_dvd_prime_iff_eq (prime_of_mem_bases (List.mem_of_find?_eq_some hfind))
        (prime_of_mem_bases hn)).mp hdvd).symm
  · next hfind =>
    obtain ⟨w, hw, hdvd⟩ := h
    have hrest : n % w ≠ 0 := by simpa using List.find?_eq_none.mp hfind w hw
    exact absurd (Nat.mod_eq_zero_of_dvd hdvd) hrest

/-- When no base divides, steps 2 and 3 decide. -/
theorem isprimeF_of_no_base {n : Nat} (h : ∀ w ∈ Config.bases, ¬ w ∣ n) :
    isprimeF n = if n < 1369 then decide (1 < n) else millerRabin n := by
  have hfind : (Config.bases.find? fun w => n % w == 0) = none := by
    rw [List.find?_eq_none]
    intro w hw
    simpa [← Nat.dvd_iff_mod_eq_zero] using h w hw
  rw [isprimeF, hfind]
  rfl

/-- A number that no base divides has no prime factor below 41. -/
theorem le_minFac_of_no_base {n : Nat} (hn : n ≠ 1) (h : ∀ w ∈ Config.bases, ¬ w ∣ n) : 41 ≤ n.minFac := by
  by_contra hsmall
  have hdvd : n.minFac ∣ n := n.minFac_dvd
  have htwo : 2 ≤ n.minFac := (Nat.minFac_prime hn).two_le
  have hlt : n.minFac < 41 := not_le.mp hsmall
  simp only [Config.bases, List.forall_mem_cons] at h
  obtain ⟨h2, h3, h5, h7, h11, h13, h17, h19, h23, h29, h31, h37, -⟩ := h
  interval_cases n.minFac <;> omega

/-- Below 1369 such a number is prime when it exceeds 1 (41_primality.md R142 step 2). -/
theorem prime_of_no_base {n : Nat} (hone : 1 < n) (hlt : n < 1369) (h : ∀ w ∈ Config.bases, ¬ w ∣ n) : n.Prime := by
  by_contra hcomposite
  have hsquare : n.minFac ^ 2 ≤ n := Nat.minFac_sq_le_self (by omega) hcomposite
  have hle : 41 ≤ n.minFac := le_minFac_of_no_base (by omega) h
  nlinarith

/-! ### Step 3 (41_primality.md R141, R145) -/

/-- `w` is no witness against `n`, where n − 1 = 2^a · b. -/
def StrongPass (n a b w : Nat) : Prop := w ^ b % n = 1 ∨ ∃ r, r < a ∧ w ^ (2 ^ r * b) % n = n - 1

/-- Squaring `left` times, the loop ends on n − 1 exactly when one of the squares is n − 1. -/
theorem squareSeeking_eq_iff {n left c : Nat} (hn : 0 < n) (hn64 : n ≤ 2 ^ 64) (hc : c < n) :
    squareSeeking n left c = n - 1 ↔ ∃ r, r ≤ left ∧ c ^ 2 ^ r % n = n - 1 := by
  induction left generalizing c with
  | zero => simp [squareSeeking, Nat.mod_eq_of_lt hc]
  | succ left ih =>
    rw [squareSeeking]
    split
    · next hfound => exact ⟨fun _ => ⟨0, Nat.zero_le _, by simp [← hfound, Nat.mod_eq_of_lt hc]⟩, fun _ => hfound⟩
    · next hmiss =>
      have hsquare : ∀ r, (c * c % n) ^ 2 ^ r % n = c ^ 2 ^ (r + 1) % n := by
        intro r
        rw [← Nat.pow_mod, ← pow_two, ← pow_mul, pow_succ' 2 r]
      rw [mulmodF_eq (hc.trans_le hn64) hn, ih (Nat.mod_lt _ hn)]
      constructor
      · rintro ⟨r, hr, hpow⟩
        exact ⟨r + 1, by omega, by rw [← hsquare, hpow]⟩
      · rintro ⟨r, hr, hpow⟩
        cases r with
        | zero => exact absurd (by simpa [Nat.mod_eq_of_lt hc] using hpow) hmiss
        | succ r => exact ⟨r, by omega, by rw [hsquare, hpow]⟩

theorem witnessPasses_iff {n a b w : Nat} (hn : 0 < n) (hn64 : n < 2 ^ 64) (ha : a ≠ 0) (hb : b ≠ 0) (hb64 : b < 2 ^ 64) :
    witnessPasses n b a w = true ↔ StrongPass n a b w := by
  have hpow : ∀ r, (w ^ b % n) ^ 2 ^ r % n = w ^ (2 ^ r * b) % n := by
    intro r
    rw [← Nat.pow_mod, ← pow_mul, mul_comm b]
  simp only [witnessPasses, powmodF_eq hb hb64 hn hn64.le, Bool.or_eq_true, beq_iff_eq,
    squareSeeking_eq_iff hn hn64.le (Nat.mod_lt _ hn), hpow, StrongPass]
  have hlt : ∀ r, r ≤ a - 1 ↔ r < a := by omega
  simp only [hlt]

/-- The split of a number into a power of two and an odd part is unique. -/
theorem two_pow_mul_odd_inj {a b c e : Nat} (hb : b % 2 = 1) (he : e % 2 = 1) (h : 2 ^ a * b = 2 ^ c * e) :
    a = c ∧ b = e := by
  induction a generalizing c with
  | zero =>
    cases c with
    | zero => simpa using h
    | succ c => rw [pow_zero, one_mul, pow_succ', mul_assoc] at h; omega
  | succ a ih =>
    cases c with
    | zero => rw [pow_zero, one_mul, pow_succ', mul_assoc] at h; omega
    | succ c =>
      obtain ⟨hac, hbe⟩ := ih (c := c) (by rw [pow_succ', pow_succ'] at h; linarith)
      exact ⟨by omega, hbe⟩

/-- Step 3 tests the first LIM(n) bases, whatever way n − 1 is split. -/
theorem millerRabin_iff {n a b : Nat} (hn : 1 < n) (hn64 : n < 2 ^ 64) (hodd : n % 2 = 1) (hsplit : n - 1 = 2 ^ a * b)
    (hb : b % 2 = 1) :
    millerRabin n = true ↔ ∀ w ∈ Config.bases.take (witnessCount n), StrongPass n a b w := by
  obtain ⟨hout, hrest⟩ := divideOut_64 one_lt_two (n := n - 1) (by omega) (by omega)
  obtain ⟨hcount, hodd'⟩ := two_pow_mul_odd_inj (by omega) hb (hout.symm.trans hsplit)
  have ha : a ≠ 0 := by
    rintro rfl
    rw [pow_zero, one_mul] at hsplit
    omega
  have hb64 : b < 2 ^ 64 := by
    have hle : b ≤ 2 ^ a * b := Nat.le_mul_of_pos_left b (by positivity)
    omega
  simp only [millerRabin, stripTwos_eq_divideOut, hcount, hodd', List.all_eq_true,
    witnessPasses_iff (by omega : 0 < n) hn64 ha (by omega : b ≠ 0) hb64]

/-- The rows of the threshold table (41_primality.md R141). -/
theorem witnessCount_eq (n : Nat) : witnessCount n = if n < 2047 then 1 else if n < 1373653 then 2 else
    if n < 25326001 then 3 else if n < 3215031751 then 4 else if n < 2152302898747 then 5 else
    if n < 3474749660383 then 6 else if n < 341550071728321 then 7 else if n < 3825123056546413051 then 9 else 12 := rfl

theorem odd_of_no_base {n : Nat} (h : ∀ w ∈ Config.bases, ¬ w ∣ n) : n % 2 = 1 := by
  have htwo : ¬ 2 ∣ n := h 2 (by decide)
  omega

/-! ### No prime is rejected (41_primality.md R144) -/

/-- In a field a 2^a-th root of 1 is 1 or has −1 among its squares. -/
theorem eq_one_or_exists_pow_eq_neg_one {F : Type} [Field F] {y : F} {a : Nat} (h : y ^ 2 ^ a = 1) :
    y = 1 ∨ ∃ r, r < a ∧ y ^ 2 ^ r = -1 := by
  induction a with
  | zero => exact .inl (by simpa using h)
  | succ a ih =>
    rw [pow_succ, pow_mul, pow_two, mul_self_eq_one_iff] at h
    rcases h with hone | hneg
    · exact (ih hone).imp_right fun ⟨r, hr, hpow⟩ => ⟨r, by omega, hpow⟩
    · exact .inr ⟨a, Nat.lt_succ_self a, hneg⟩

theorem strongPass_of_prime {n a b w : Nat} (hn : n.Prime) (hsplit : n - 1 = 2 ^ a * b) (hw : ¬ n ∣ w) :
    StrongPass n a b w := by
  have hfact : Fact n.Prime := ⟨hn⟩
  have hunit : (w : ZMod n) ≠ 0 := by rwa [Ne, ZMod.natCast_eq_zero_iff]
  have hfermat : ((w : ZMod n) ^ b) ^ 2 ^ a = 1 := by
    rw [← pow_mul, mul_comm, ← hsplit]
    exact ZMod.pow_card_sub_one_eq_one hunit
  have hmod : ∀ k m, m < n → (w : ZMod n) ^ k = (m : ZMod n) → w ^ k % n = m := by
    intro k m hm hpow
    rw [← Nat.cast_pow, ZMod.natCast_eq_natCast_iff', Nat.mod_eq_of_lt hm] at hpow
    exact hpow
  have hpred : ((n - 1 : ℕ) : ZMod n) = -1 := by
    rw [Nat.cast_pred hn.pos, ZMod.natCast_self, zero_sub]
  rcases eq_one_or_exists_pow_eq_neg_one hfermat with h | ⟨r, hr, h⟩
  · exact .inl (hmod b 1 hn.one_lt (by rw [h, Nat.cast_one]))
  · exact .inr ⟨r, hr, hmod _ _ (Nat.pred_lt hn.ne_zero) (by rw [mul_comm, pow_mul, h, hpred])⟩

/-! ### The obligations -/

/-- Settles O57: the three steps in turn; the third by the loop's squarings and by the table's rows. -/
theorem isprimeFollowsItsSteps : Obligations.IsprimeFollowsItsSteps := by
  intro n hn bases lim
  refine ⟨isprimeF_of_base, fun hbases hlt => ?_, fun hbases hge a b hsplit hb => ?_⟩
  · rw [isprimeF_of_no_base hbases, if_pos hlt, decide_eq_true_iff]
  · rw [isprimeF_of_no_base hbases, if_neg (not_lt.mpr hge),
      millerRabin_iff (by omega) hn (odd_of_no_base hbases) hsplit hb, witnessCount_eq]
    rfl

/-- Settles O26: where a base divides, a prime is that base; below 1369 a composite has a prime factor below 37. -/
theorem isprimeExactByTrialDivision : Obligations.IsprimeExactByTrialDivision := by
  intro n h
  by_cases hbase : ∃ w ∈ Config.bases, w ∣ n
  · rw [isprimeF_of_base hbase]
    refine ⟨prime_of_mem_bases, fun hprime => ?_⟩
    obtain ⟨w, hw, hdvd⟩ := hbase
    exact (Nat.prime_dvd_prime_iff_eq (prime_of_mem_bases hw) hprime).mp hdvd ▸ hw
  · have hlt : n < 1369 := h.resolve_right hbase
    have hbases : ∀ w ∈ Config.bases, ¬ w ∣ n := fun w hw hdvd => hbase ⟨w, hw, hdvd⟩
    rw [isprimeF_of_no_base hbases, if_pos hlt, decide_eq_true_iff]
    exact ⟨fun hone => prime_of_no_base hone hlt hbases, Nat.Prime.one_lt⟩

/-- Settles O25: a prime from 1369 on is divided by no base, and every base passes the witness test on it. -/
theorem isprimeAcceptsEveryPrime : Obligations.IsprimeAcceptsEveryPrime := by
  intro n hn hprime
  by_cases hsmall : n < 1369 ∨ ∃ w ∈ Config.bases, w ∣ n
  · exact (isprimeExactByTrialDivision n hsmall).mpr hprime
  · obtain ⟨hge, hbase⟩ := not_or.mp hsmall
    have hbases : ∀ w ∈ Config.bases, ¬ w ∣ n := fun w hw hdvd => hbase ⟨w, hw, hdvd⟩
    obtain ⟨a, b, hb, hsplit⟩ := Nat.exists_eq_two_pow_mul_odd (n := n - 1) (by have := hprime.two_le; omega)
    rw [isprimeF_of_no_base hbases, if_neg hge,
      millerRabin_iff hprime.one_lt hn (odd_of_no_base hbases) hsplit (Nat.odd_iff.mp hb)]
    intro w hw
    have hw' : w ∈ Config.bases := List.mem_of_mem_take hw
    refine strongPass_of_prime hprime hsplit fun hdvd => hbases w hw' ?_
    rw [(Nat.prime_dvd_prime_iff_eq hprime (prime_of_mem_bases hw')).mp hdvd]

theorem exec_isprime_of_running {ops : Operands} {s : State} (h : Running .isprime ops s) :
    exec .isprime s = .next (s.finishRes0 (.ok (if isprimeF ops.a.toNat then 1 else 0))) := by
  rw [← h.operands_eq]
  rfl

/-- Settles O24: the tester's answer goes to RES0. -/
theorem isprimeAnswersOneOrZero : Obligations.IsprimeAnswersOneOrZero := by
  intro s ops hrun
  obtain ⟨hdone, hheld, hregs, houtside⟩ := finishRes0_ok s (if isprimeF ops.a.toNat then 1 else 0)
  exact ⟨_, _, exec_isprime_of_running hrun, hdone, hheld, rfl, hregs, houtside⟩

end Sys2Proof.Machine
end

section
/-! PROOFS of the statements about the generator, the rho attempt and its retry loop (43_pollard_rho.md;
44_factorization.md R216). Each of the generator's three shifts is injective; a rho attempt answers a divisor; the retry
loop is one attempt after another, each on the next word of the generator. -/

namespace Sys2Proof.Machine

/-! ### The generator (43_pollard_rho.md R180) -/

/-- A word that a left shift leaves as it is is 0: its lowest set bit would move up. -/
theorem eq_zero_of_eq_shiftLeft {w : Word} {k : Nat} (hk : 0 < k) (h : w = w <<< k) : w = 0 := by
  refine BitVec.eq_of_getLsbD_eq fun i hi => ?_
  rw [BitVec.ofNat_eq_ofNat, BitVec.getLsbD_zero]
  induction i using Nat.strong_induction_on with
  | _ i ih =>
    rw [h, BitVec.getLsbD_shiftLeft]
    by_cases hik : i < k
    · simp [hik]
    · simp [ih (i - k) (by omega) (by omega)]

/-- A word that a right shift leaves as it is is 0: every other word gets smaller. -/
theorem eq_zero_of_eq_ushiftRight {w : Word} {k : Nat} (hk : 0 < k) (h : w = w >>> k) : w = 0 := by
  by_contra hw
  have hpos : 0 < w.toNat := BitVec.toNat_pos_of_ne_zero hw
  have hfalls : w.toNat / 2 ^ k < w.toNat := Nat.div_lt_self hpos (Nat.one_lt_two_pow hk.ne')
  have hsame : w.toNat = w.toNat / 2 ^ k := by
    rw [← Nat.shiftRight_eq_div_pow, ← BitVec.toNat_ushiftRight, ← h]
  omega

theorem xor_eq_xor_of_xor_eq {a b a' b' : Word} (h : a ^^^ a' = b ^^^ b') : a ^^^ b = a' ^^^ b' := by
  calc a ^^^ b = (a ^^^ a') ^^^ (a' ^^^ b) := by
        rw [BitVec.xor_assoc, ← BitVec.xor_assoc a', BitVec.xor_self, BitVec.zero_xor]
    _ = (b' ^^^ b) ^^^ (b ^^^ a') := by rw [h, BitVec.xor_comm b b', BitVec.xor_comm a' b]
    _ = a' ^^^ b' := by
        rw [BitVec.xor_assoc, ← BitVec.xor_assoc b b, BitVec.xor_self, BitVec.zero_xor, BitVec.xor_comm]

theorem xor_shiftLeft_injective {a b : Word} {k : Nat} (hk : 0 < k) (h : a ^^^ (a <<< k) = b ^^^ (b <<< k)) :
    a = b := by
  refine BitVec.xor_eq_zero_iff.mp (eq_zero_of_eq_shiftLeft hk ?_)
  rw [BitVec.shiftLeft_xor_distrib]
  exact xor_eq_xor_of_xor_eq h

theorem xor_ushiftRight_injective {a b : Word} {k : Nat} (hk : 0 < k) (h : a ^^^ (a >>> k) = b ^^^ (b >>> k)) :
    a = b := by
  refine BitVec.xor_eq_zero_iff.mp (eq_zero_of_eq_ushiftRight hk ?_)
  rw [BitVec.ushiftRight_xor_distrib]
  exact xor_eq_xor_of_xor_eq h

theorem xorshiftF_injective : Function.Injective xorshiftF := fun _ _ h =>
  xor_shiftLeft_injective (by decide) (xor_ushiftRight_injective (by decide) (xor_shiftLeft_injective (by decide) h))

theorem xorshiftF_zero : xorshiftF 0 = 0 := by decide

/-- SEED = 0 stays 0 (70_reset_and_hazards.md R286). -/
theorem iterate_xorshiftF_zero (j : Nat) : xorshiftF^[j] 0 = 0 := Function.iterate_fixed xorshiftF_zero j

/-- Settles O30: the three steps of the generator are injective, and it maps 0 to 0. -/
theorem xorshiftIsInjective : Obligations.XorshiftIsInjective :=
  ⟨fun _ _ h => xorshiftF_injective h, fun _ => xorshiftF_injective.eq_iff' xorshiftF_zero⟩

/-! ### One rho attempt (43_pollard_rho.md R184, R186) -/

/-- The loop ends on a greatest common divisor other than 1, or on the failure sentinel `n`. -/
theorem rhoLoop_ne_one (n : Nat) : ∀ left y x i j, rhoLoop n left y x i j ≠ 1 ∨ rhoLoop n left y x i j = n
  | 0, _, _, _, _ => .inr rfl
  | left + 1, y, x, i, j => by
    unfold rhoLoop
    extract_lets x' j' y' d
    split
    · next hd => exact .inl hd
    · exact rhoLoop_ne_one n left _ _ _ _

/-- A rho attempt on `n` gives a proper divisor, or `n` itself. -/
theorem rhoF_proper {n : Nat} (hn : n ≠ 0) (seed : Word) :
    (1 < (rhoF n seed).1 ∧ (rhoF n seed).1 < n) ∨ (rhoF n seed).1 = n := by
  have hdvd : (rhoF n seed).1 ∣ n := rhoF_fst_dvd n seed
  have hpos : 0 < (rhoF n seed).1 := Nat.pos_of_dvd_of_pos hdvd (Nat.pos_of_ne_zero hn)
  have hle : (rhoF n seed).1 ≤ n := Nat.le_of_dvd (Nat.pos_of_ne_zero hn) hdvd
  have hone : (rhoF n seed).1 ≠ 1 ∨ (rhoF n seed).1 = n := rhoLoop_ne_one n _ _ _ _ _
  omega

theorem exec_rho_of_running {ops : Operands} {s : State} (h : Running .rho ops s) (ha : ops.a ≠ 0) :
    exec .rho s = .next ((s.setSeed (xorshiftF s.seed)).finishRes0
      (.ok (BitVec.ofNat 64 (rhoF ops.a.toNat s.seed).1))) := by
  simp only [exec, execRho, h.operands_eq, if_neg ha, rhoF_snd]

/-- Settles O32: the attempt's divisor fits in RES0, and SEED takes one step of the generator. -/
theorem rhoReturnsADivisor : Obligations.RhoReturnsADivisor := by
  intro s ops hrun ha
  have hn : ops.a.toNat ≠ 0 := (BitVec.toNat_pos_of_ne_zero ha).ne'
  have hdvd : (rhoF ops.a.toNat s.seed).1 ∣ ops.a.toNat := rhoF_fst_dvd _ _
  have hvalue : (BitVec.ofNat 64 (rhoF ops.a.toNat s.seed).1).toNat = (rhoF ops.a.toNat s.seed).1 :=
    toNat_ofNat_of_lt ((Nat.le_of_dvd (Nat.pos_of_ne_zero hn) hdvd).trans_lt ops.a.isLt)
  obtain ⟨hdone, hseed, hres0, hregs, houtside⟩ := setSeed_finishRes0_ok s (xorshiftF s.seed) _
  refine ⟨_, _, exec_rho_of_running hrun ha, hdone, hres0, by rwa [hvalue], ?_, hseed, fun r hr => ?_, houtside⟩
  · rw [hvalue]
    refine (rhoF_proper hn s.seed).imp_right fun hself => ?_
    rw [hself, BitVec.ofNat_toNat, BitVec.setWidth_eq]
  · refine hregs r ?_
    simp only [List.mem_cons, List.not_mem_nil, or_false, not_or] at hr ⊢
    tauto

/-! ### The retry loop (44_factorization.md R216) -/

/-- What call number `j` (from 0) of a loop on `m` returns. -/
def rhoResult (m : Nat) (seed : Word) (j : Nat) : Nat := (rhoF m (xorshiftF^[j] seed)).1

/-- Call number `j` finds no proper divisor. -/
def RhoFails (m : Nat) (seed : Word) (j : Nat) : Prop := rhoResult m seed j = 1 ∨ rhoResult m seed j = m

theorem rhoFails_succ (m : Nat) (seed : Word) (j : Nat) : RhoFails m (xorshiftF seed) j ↔ RhoFails m seed (j + 1) :=
  Iff.rfl

/-- The driver after `calls` rho calls, of which `failed` failed. -/
def Driver.afterCalls (d : Driver) (calls failed budget : Nat) : Driver :=
  { d with seed := xorshiftF^[calls] d.seed, fails := d.fails + failed, budget := budget - calls }

/-- How a retry loop on `m` with this budget ends. -/
inductive RetryOutcome (limit m budget : Nat) (d : Driver) : Except DriverStop (Nat × Driver) → Prop
  /-- Call `k` is the first that finds a proper divisor. -/
  | found (k : Nat) (hk : k < budget) (hfails : ∀ j, j < k → RhoFails m d.seed j) (hfound : ¬ RhoFails m d.seed k)
      (hlimit : limit ≠ 0 → 0 < k → d.fails + k < limit) :
      RetryOutcome limit m budget d (.ok (rhoResult m d.seed k, d.afterCalls (k + 1) k budget))
  /-- Call `k` fails and brings the failures to the limit. -/
  | limitReached (k : Nat) (hk : k < budget) (hfails : ∀ j, j ≤ k → RhoFails m d.seed j) (hlimit : limit ≠ 0)
      (hreached : limit ≤ d.fails + k + 1) (hbelow : 0 < k → d.fails + k < limit) :
      RetryOutcome limit m budget d (.error (.error .retryLimit (xorshiftF^[k + 1] d.seed)))
  /-- Every call of the budget fails below the limit. -/
  | spent (hfails : ∀ j, j < budget → RhoFails m d.seed j)
      (hbelow : limit = 0 ∨ budget = 0 ∨ d.fails + budget < limit) :
      RetryOutcome limit m budget d (.error .spent)

theorem forall_lt_succ_of_zero {P : Nat → Prop} {k : Nat} (h0 : P 0) (h : ∀ j, j < k → P (j + 1)) :
    ∀ j, j < k + 1 → P j := by
  rintro (_ | j) hj
  · exact h0
  · exact h j (by omega)

/-- One failed call below the limit in front of a loop. -/
theorem RetryOutcome.failed_first {limit m budget : Nat} {d : Driver} {answer : Except DriverStop (Nat × Driver)}
    (h : RetryOutcome limit m budget (d.afterCalls 1 1 (budget + 1)) answer) (hfirst : RhoFails m d.seed 0)
    (hbelow : limit = 0 ∨ d.fails + 1 < limit) : RetryOutcome limit m (budget + 1) d answer := by
  cases h with
  | found k hk hfails hfound hlimit =>
    have hdriver : (d.afterCalls 1 1 (budget + 1)).afterCalls (k + 1) k budget =
        d.afterCalls (k + 1 + 1) (k + 1) (budget + 1) := by
      simp only [Driver.afterCalls, Driver.mk.injEq, true_and, Function.iterate_succ_apply, Function.iterate_zero_apply]
      omega
    rw [hdriver]
    refine .found (k + 1) (by omega) (forall_lt_succ_of_zero hfirst hfails) hfound fun hl _ => ?_
    have hlater : 0 < k → d.fails + 1 + k < limit := hlimit hl
    omega
  | limitReached k hk hfails hlimit hreached hlast =>
    have hlater : 0 < k → d.fails + 1 + k < limit := hlast
    have hend : limit ≤ d.fails + 1 + k + 1 := hreached
    refine .limitReached (k + 1) (by omega) (fun j hj => ?_) hlimit (by omega) (by omega)
    exact forall_lt_succ_of_zero (k := k + 1) hfirst (fun j hj => hfails j (by omega)) j (by omega)
  | spent hfails hrest =>
    have hlater : limit = 0 ∨ budget = 0 ∨ d.fails + 1 + budget < limit := hrest
    exact .spent (forall_lt_succ_of_zero hfirst hfails) (by omega)

theorem retryOutcome (limit m budget : Nat) (d : Driver) :
    RetryOutcome limit m budget d (rhoRetry limit m budget d) := by
  induction budget generalizing d with
  | zero => exact .spent (fun j hj => absurd hj j.not_lt_zero) (.inr (.inl rfl))
  | succ budget ih =>
    simp only [rhoRetry, rhoF_snd]
    split
    · next hx =>
      exact .found 0 budget.succ_pos (fun j hj => absurd hj j.not_lt_zero) (not_or.mpr hx) (fun _ h => absurd h (by simp))
    · next hx =>
      have hfail : (rhoF m d.seed).1 = 1 ∨ (rhoF m d.seed).1 = m := by simpa only [not_and_or, not_not] using hx
      have hfirst : RhoFails m d.seed 0 := hfail
      split
      · next hlimit =>
        exact .limitReached 0 budget.succ_pos (fun j hj => by rwa [Nat.le_zero.mp hj]) hlimit.1 hlimit.2
          (fun h => absurd h (by simp))
      · next hlimit => exact (ih (d.afterCalls 1 1 (budget + 1))).failed_first hfirst (by omega)

/-- Settles O58: the three outcomes of the loop. -/
theorem rhoRetryIsTheLoop : Obligations.RhoRetryIsTheLoop := by
  intro limit m budget d result failed
  have houtcome := retryOutcome limit m budget d
  refine ⟨fun x d' heq => ?_, fun code seed heq => ?_, fun heq => ?_⟩ <;> rw [heq] at houtcome
  · cases houtcome with
    | found k hk hfails hfound hlimit => exact ⟨k, hk, hfails, hfound, rfl, hlimit, rfl⟩
  · cases houtcome with
    | limitReached k hk hfails hlimit hreached hbelow => exact ⟨rfl, hlimit, k, hk, hfails, hreached, hbelow, rfl⟩
  · cases houtcome with
    | spent hfails hbelow => exact ⟨hfails, hbelow⟩

/-- Settles O45: a loop that spends its budget stays below the limit. -/
theorem retryLimitBoundsTheLoop : Obligations.RetryLimitBoundsTheLoop := by
  intro limit m budget d hpos hle heq
  have houtcome := retryOutcome limit m budget d
  rw [heq] at houtcome
  cases houtcome with
  | spent hfails hbelow => omega

/-- Settles O43: from SEED 0 every call is the first one again. -/
theorem zeroSeedFailureRepeats : Obligations.ZeroSeedFailureRepeats := by
  intro m budget d hseed hfails
  have hall : ∀ j, RhoFails m d.seed j := by
    intro j
    rw [RhoFails, rhoResult, hseed, iterate_xorshiftF_zero]
    exact hfails
  generalize hanswer : rhoRetry 0 m budget d = answer
  have houtcome := retryOutcome 0 m budget d
  rw [hanswer] at houtcome
  cases houtcome with
  | found k hk hfailed hfound hlimit => exact absurd (hall k) hfound
  | limitReached k hk hfailed hlimit hreached hbelow => exact absurd rfl hlimit
  | spent hfailed hbelow => rfl

end Sys2Proof.Machine
end

section
/-! PROOFS of the statements about FACTOR's answer and the model's budget (44_factorization.md R210, R223). The driver is
written as a sequence of its steps; what each step does to SEED, to the failed calls and to the budget follows the
sequence, and so does what a larger budget changes. -/

namespace Sys2Proof.Machine

/-! ### The driver as a sequence of steps (44_factorization.md R211 to R218) -/

/-- The driver at the start of FACTOR_F. -/
def Driver.start (budget n : Nat) (seed : Word) : Driver :=
  { n := n, pow := 1, records := [], seed := seed, fails := 0, budget := budget }

/-- The driver with another residual and exponent multiplier. -/
def Driver.withResidual (d : Driver) (n pow : Nat) : Driver := { d with n := n, pow := pow }

theorem stripStage_eq (d : Driver) :
    stripStage d = if (divideOut 2 64 d.n 0).2 > 0
      then emit 2 (divideOut 2 64 d.n 0).2 (d.withResidual (divideOut 2 64 d.n 0).1 d.pow)
      else .ok (d.withResidual (divideOut 2 64 d.n 0).1 d.pow) := by
  rw [stripStage, stripTwos_eq_divideOut]
  rfl

theorem trialLoop_succ (passes p bound : Nat) (d : Driver) :
    trialLoop (passes + 1) p bound d =
      if p < bound then
        if d.n % p = 0 then
          (emit p ((divideOut p 64 d.n 0).2 * d.pow) d).bind fun d' =>
            trialLoop passes (p + 2) (sqpowF (divideOut p 64 d.n 0).1 d.pow).bound
              (d'.withResidual (sqpowF (divideOut p 64 d.n 0).1 d.pow).n (sqpowF (divideOut p 64 d.n 0).1 d.pow).pow)
        else trialLoop passes (p + 2) bound d
      else .ok d := by
  rw [trialLoop]
  cases emit p ((divideOut p 64 d.n 0).2 * d.pow) d <;> rfl

theorem trialStage_eq (d : Driver) :
    trialStage d = if d.n > 8
      then trialLoop Config.trialCap 3 (sqpowF d.n d.pow).bound
        (d.withResidual (sqpowF d.n d.pow).n (sqpowF d.n d.pow).pow)
      else .ok d := rfl

theorem classifyWide_eq (limit x : Nat) (d : Driver) :
    classifyWide limit x d =
      if isqrtF x * isqrtF x = x then emit (isqrtF x) (2 * d.pow) d
      else if isprimeF x then emit x d.pow d
      else (rhoRetry limit x d.budget d).bind fun r =>
        (emit r.1 r.2.pow r.2).bind fun d' => emit (x / r.1) d'.pow d' := by
  rw [classifyWide]
  cases rhoRetry limit x d.budget d with
  | error stop => rfl
  | ok r => obtain ⟨y, d'⟩ := r; cases hemit : emit y d'.pow d' <;> simp [Except.bind, hemit]

theorem classifyNarrow_eq (x : Nat) (d : Driver) :
    classifyNarrow x d =
      if d.n % x = 0 then (emit x (d.pow + 1) d).bind fun d' => .ok (d'.withResidual (d'.n / x) d'.pow)
      else emit x d.pow d := by
  rw [classifyNarrow]
  cases emit x (d.pow + 1) d <;> rfl

/-- CLASSIFY (44_factorization.md R215, R216). -/
def classify (limit x : Nat) (d : Driver) : Except DriverStop Driver :=
  if x > Config.word32Max then classifyWide limit x d else classifyNarrow x d

theorem rhoStage_succ (limit passes : Nat) (d : Driver) :
    rhoStage limit (passes + 1) d =
      if d.n > Config.word32Max ∧ isprimeF d.n = false then
        (rhoRetry limit d.n d.budget d).bind fun r =>
          (classify limit r.1 (r.2.withResidual (r.2.n / r.1) r.2.pow)).bind (rhoStage limit passes)
      else .ok d := by
  rw [rhoStage]
  cases rhoRetry limit d.n d.budget d with
  | error stop => rfl
  | ok r =>
    obtain ⟨x, d'⟩ := r
    simp only [classify, Driver.withResidual, Except.bind]
    cases (if x > Config.word32Max then classifyWide limit x { d' with n := d'.n / x }
      else classifyNarrow x { d' with n := d'.n / x }) <;> rfl

/-- The steps of FACTOR_F from step 2 on. -/
def factorSteps (limit : Nat) (d : Driver) : Except DriverStop Driver :=
  (stripStage d).bind fun d => (trialStage d).bind fun d => (rhoStage limit (d.budget + 1) d).bind finalResidual

theorem factorF_eq (limit budget n : Nat) (seed : Word) :
    factorF limit budget n seed =
      if n = 0 ∨ n = 1 then .ok (.start budget n seed)
      else if n = 2 ∨ n = 3 then emit n 1 (.start budget n seed)
      else factorSteps limit (.start budget n seed) := by
  simp only [factorF, factorSteps]
  split
  · rfl
  · split
    · rfl
    · simp only [Driver.start]
      cases hstrip : stripStage { n := n, pow := 1, records := [], seed := seed, fails := 0, budget := budget } with
      | error stop => rfl
      | ok d1 =>
        simp only [Except.bind]
        cases htrial : trialStage d1 with
        | error stop => rfl
        | ok d2 =>
          simp only
          cases rhoStage limit (d2.budget + 1) d2 <;> rfl

/-! ### Answers of the driver's steps -/

/-- The step answers a driver that meets `post`, or stops in a way that meets `stop`. -/
def Meets {α : Type} (post : α → Prop) (stop : DriverStop → Prop) : Except DriverStop α → Prop
  | .ok a => post a
  | .error e => stop e

theorem Meets.of_ok {α : Type} {post : α → Prop} {stop : DriverStop → Prop} {r : Except DriverStop α} {a : α}
    (h : Meets post stop r) (heq : r = .ok a) : post a := by
  subst heq
  exact h

theorem Meets.of_error {α : Type} {post : α → Prop} {stop : DriverStop → Prop} {r : Except DriverStop α} {e : DriverStop}
    (h : Meets post stop r) (heq : r = .error e) : stop e := by
  subst heq
  exact h

theorem Meets.imp {α : Type} {post post' : α → Prop} {stop stop' : DriverStop → Prop} {r : Except DriverStop α}
    (h : Meets post stop r) (hpost : ∀ a, post a → post' a) (hstop : ∀ e, stop e → stop' e) : Meets post' stop' r := by
  cases r with
  | ok a => exact hpost a h
  | error e => exact hstop e h

theorem Meets.bind {α β : Type} {mid : α → Prop} {post : β → Prop} {stop : DriverStop → Prop} {r : Except DriverStop α}
    {f : α → Except DriverStop β} (h : Meets mid stop r) (hf : ∀ a, mid a → Meets post stop (f a)) :
    Meets post stop (r.bind f) := by
  cases r with
  | ok a => exact hf a h
  | error e => exact h

/-! ### Steps without a rho call -/

/-- From `d` to `d'` no rho call was made, and the records still leave room for the sentinel. -/
structure SameCalls (d d' : Driver) : Prop where
  seed : d'.seed = d.seed
  fails : d'.fails = d.fails
  budget : d'.budget = d.budget
  room : d.records.length ≤ 15 → d'.records.length ≤ 15

theorem SameCalls.refl (d : Driver) : SameCalls d d := ⟨rfl, rfl, rfl, id⟩

theorem SameCalls.trans {d d' d'' : Driver} (h : SameCalls d d') (h' : SameCalls d' d'') : SameCalls d d'' :=
  ⟨h'.seed.trans h.seed, h'.fails.trans h.fails, h'.budget.trans h.budget, fun hroom => h'.room (h.room hroom)⟩

theorem SameCalls.withResidual (d : Driver) (n pow : Nat) : SameCalls d (d.withResidual n pow) := ⟨rfl, rfl, rfl, id⟩

/-- The step makes no rho call, and stops for want of room only. -/
def NoCalls (d : Driver) : Except DriverStop Driver → Prop :=
  Meets (SameCalls d) fun stop => stop = .error .fbufOverflow d.seed

theorem NoCalls.after {d d' : Driver} {r : Except DriverStop Driver} (h : SameCalls d d') (hr : NoCalls d' r) :
    NoCalls d r :=
  hr.imp (fun _ => h.trans) (fun _ heq => by rw [heq, h.seed])

theorem NoCalls.ok {d d' : Driver} (h : SameCalls d d') : NoCalls d (.ok d') := h

theorem NoCalls.bind {d : Driver} {r : Except DriverStop Driver} {f : Driver → Except DriverStop Driver}
    (h : NoCalls d r) (hf : ∀ d', NoCalls d' (f d')) : NoCalls d (r.bind f) :=
  Meets.bind h fun d' hd' => (hf d').after hd'

theorem noCalls_emit (q e : Nat) (d : Driver) : NoCalls d (emit q e d) := by
  cases hemit : emit q e d with
  | ok d' =>
    obtain ⟨hroom, rfl⟩ := emit_ok hemit
    exact ⟨rfl, rfl, rfl, fun _ => by simpa using hroom⟩
  | error stop => exact (emit_error hemit).2

theorem noCalls_stripStage (d : Driver) : NoCalls d (stripStage d) := by
  rw [stripStage_eq]
  split
  · exact (noCalls_emit _ _ _).after (.withResidual d _ _)
  · exact .withResidual d _ _

theorem noCalls_trialLoop (passes p bound : Nat) (d : Driver) : NoCalls d (trialLoop passes p bound d) := by
  induction passes generalizing p bound d with
  | zero => exact SameCalls.refl d
  | succ passes ih =>
    rw [trialLoop_succ]
    split
    · split
      · exact (noCalls_emit _ _ d).bind fun d' => (ih _ _ _).after (.withResidual d' _ _)
      · exact ih _ _ d
    · exact SameCalls.refl d

theorem noCalls_trialStage (d : Driver) : NoCalls d (trialStage d) := by
  rw [trialStage_eq]
  split
  · exact (noCalls_trialLoop _ _ _ _).after (.withResidual d _ _)
  · exact SameCalls.refl d

theorem noCalls_classifyNarrow (x : Nat) (d : Driver) : NoCalls d (classifyNarrow x d) := by
  rw [classifyNarrow_eq]
  split
  · exact (noCalls_emit _ _ d).bind fun d' => .ok (.withResidual d' _ _)
  · exact noCalls_emit _ _ d

theorem noCalls_finalResidual (d : Driver) : NoCalls d (finalResidual d) := by
  rw [finalResidual]
  split
  · exact noCalls_emit _ _ d
  · exact SameCalls.refl d

/-! ### The rho calls of the whole driver (44_factorization.md R210; log 5, log 13) -/

/-- SEED has advanced once for each call taken off the budget. -/
structure CallsMade (budget : Nat) (seed : Word) (d : Driver) : Prop where
  le : d.budget ≤ budget
  seed_eq : d.seed = xorshiftF^[budget - d.budget] seed
  room : d.records.length ≤ 15

/-- An error is one of FACTOR's two, and SEED has advanced once for each call of some part of the budget. -/
def StopsAfterCalls (limit budget : Nat) (seed : Word) : DriverStop → Prop
  | .spent => True
  | .error code seed' =>
    (code = .fbufOverflow ∨ (code = .retryLimit ∧ limit ≠ 0)) ∧ ∃ k, k ≤ budget ∧ seed' = xorshiftF^[k] seed

section
variable {limit budget : Nat} {seed : Word} {d : Driver}

theorem CallsMade.start (budget n : Nat) (seed : Word) : CallsMade budget seed (.start budget n seed) :=
  ⟨le_rfl, by simp [Driver.start], Nat.zero_le _⟩

theorem CallsMade.same (h : CallsMade budget seed d) {d' : Driver} (hd' : SameCalls d d') : CallsMade budget seed d' :=
  ⟨hd'.budget ▸ h.le, by rw [hd'.seed, hd'.budget, h.seed_eq], hd'.room h.room⟩

/-- Of the budget left, `k` calls more. -/
theorem CallsMade.iterate (h : CallsMade budget seed d) {k : Nat} (hk : k ≤ d.budget) :
    xorshiftF^[k] d.seed = xorshiftF^[budget - (d.budget - k)] seed := by
  have hsum : budget - (d.budget - k) = k + (budget - d.budget) := by
    have hle := h.le
    omega
  rw [hsum, Function.iterate_add_apply, ← h.seed_eq]

theorem CallsMade.noCalls (h : CallsMade budget seed d) {r : Except DriverStop Driver} (hr : NoCalls d r) :
    Meets (CallsMade budget seed) (StopsAfterCalls limit budget seed) r := by
  refine hr.imp (fun d' hd' => h.same hd') fun stop hstop => ?_
  subst hstop
  exact ⟨.inl rfl, _, Nat.sub_le _ _, h.seed_eq⟩

theorem CallsMade.meets_rhoRetry (h : CallsMade budget seed d) (m : Nat) :
    Meets (fun r => CallsMade budget seed r.2) (StopsAfterCalls limit budget seed) (rhoRetry limit m d.budget d) := by
  have hle := h.le
  have houtcome := retryOutcome limit m d.budget d
  generalize rhoRetry limit m d.budget d = answer at houtcome ⊢
  cases houtcome with
  | found k hk hfails hfound hlimit => exact ⟨by simp only [Driver.afterCalls]; omega, h.iterate hk, h.room⟩
  | limitReached k hk hfails hlimit hreached hbelow =>
    exact ⟨.inr ⟨rfl, hlimit⟩, _, Nat.sub_le _ _, h.iterate hk⟩
  | spent hfails hbelow => trivial

theorem CallsMade.meets_classify (h : CallsMade budget seed d) (x : Nat) :
    Meets (CallsMade budget seed) (StopsAfterCalls limit budget seed) (classify limit x d) := by
  rw [classify, classifyWide_eq]
  split
  · split
    · exact h.noCalls (noCalls_emit _ _ d)
    · split
      · exact h.noCalls (noCalls_emit _ _ d)
      · refine (h.meets_rhoRetry x).bind fun r hr => ?_
        exact hr.noCalls ((noCalls_emit _ _ r.2).bind fun d' => noCalls_emit _ _ d')
  · exact h.noCalls (noCalls_classifyNarrow x d)

theorem CallsMade.meets_rhoStage (h : CallsMade budget seed d) (passes : Nat) :
    Meets (CallsMade budget seed) (StopsAfterCalls limit budget seed) (rhoStage limit passes d) := by
  induction passes generalizing d with
  | zero => trivial
  | succ passes ih =>
    rw [rhoStage_succ]
    split
    · refine (h.meets_rhoRetry d.n).bind fun r hr => ?_
      exact ((hr.same (.withResidual r.2 _ _)).meets_classify r.1).bind fun d' hd' => ih hd'
    · exact h

theorem callsMade_factorF (limit budget n : Nat) (seed : Word) :
    Meets (CallsMade budget seed) (StopsAfterCalls limit budget seed) (factorF limit budget n seed) := by
  have h : CallsMade budget seed (.start budget n seed) := .start budget n seed
  rw [factorF_eq]
  split
  · exact h
  · split
    · exact h.noCalls (noCalls_emit _ _ _)
    · refine (h.noCalls (noCalls_stripStage _)).bind fun d1 h1 => ?_
      refine (h1.noCalls (noCalls_trialStage d1)).bind fun d2 h2 => ?_
      exact (h2.meets_rhoStage _).bind fun d3 h3 => h3.noCalls (noCalls_finalResidual d3)

end

/-! ### A larger budget (44_factorization.md R223; log 5) -/

/-- With more budget the step answers the same, with `g` for the budget left over, unless the first one was spent. -/
def Extends {α : Type} (g : α → α) (r r' : Except DriverStop α) : Prop := r = .error .spent ∨ r' = r.map g

theorem Extends.bind {α β : Type} {g : α → α} {h : β → β} {r r' : Except DriverStop α}
    {f f' : α → Except DriverStop β} (hr : Extends g r r') (hf : ∀ a, Extends h (f a) (f' (g a))) :
    Extends h (r.bind f) (r'.bind f') := by
  rcases hr with rfl | rfl
  · exact .inl rfl
  · cases r with
    | ok a => exact hf a
    | error e => exact .inr rfl

/-- The driver with `k` more calls on its budget. -/
def Driver.addBudget (k : Nat) (d : Driver) : Driver := { d with budget := d.budget + k }

theorem rhoRetry_succ (limit m budget : Nat) (d : Driver) :
    rhoRetry limit m (budget + 1) d =
      if (rhoF m d.seed).1 ≠ 1 ∧ (rhoF m d.seed).1 ≠ m then .ok ((rhoF m d.seed).1, d.afterCalls 1 0 (budget + 1))
      else if limit ≠ 0 ∧ d.fails + 1 ≥ limit then .error (.error .retryLimit (xorshiftF d.seed))
      else rhoRetry limit m budget (d.afterCalls 1 1 (budget + 1)) := rfl

section
variable (k limit : Nat)

theorem extends_emit (q e : Nat) (d : Driver) : Extends (.addBudget k) (emit q e d) (emit q e (d.addBudget k)) := by
  refine .inr ?_
  by_cases hroom : d.records.length < 15
  · rw [emit_eq_ok hroom, emit_eq_ok (d := d.addBudget k) hroom]
    rfl
  · rw [emit_eq_overflow (not_lt.mp hroom), emit_eq_overflow (d := d.addBudget k) (not_lt.mp hroom)]
    rfl

theorem extends_stripStage (d : Driver) : Extends (.addBudget k) (stripStage d) (stripStage (d.addBudget k)) := by
  rw [stripStage_eq, stripStage_eq]
  change Extends _ _ (ite ((divideOut 2 64 d.n 0).2 > 0) _ _)
  split
  · exact extends_emit k _ _ _
  · exact .inr rfl

theorem extends_trialLoop (passes p bound : Nat) (d : Driver) :
    Extends (.addBudget k) (trialLoop passes p bound d) (trialLoop passes p bound (d.addBudget k)) := by
  induction passes generalizing p bound d with
  | zero => exact .inr rfl
  | succ passes ih =>
    rw [trialLoop_succ, trialLoop_succ]
    change Extends _ _ (ite (p < bound) (ite (d.n % p = 0) _ _) _)
    split
    · split
      · exact (extends_emit k _ _ d).bind fun d' => ih _ _ _
      · exact ih _ _ d
    · exact .inr rfl

theorem extends_trialStage (d : Driver) : Extends (.addBudget k) (trialStage d) (trialStage (d.addBudget k)) := by
  rw [trialStage_eq, trialStage_eq]
  change Extends _ _ (ite (d.n > 8) _ _)
  split
  · exact extends_trialLoop k _ _ _ _
  · exact .inr rfl

theorem extends_rhoRetry (m budget : Nat) (d : Driver) :
    Extends (Prod.map id (.addBudget k)) (rhoRetry limit m budget d) (rhoRetry limit m (budget + k) (d.addBudget k)) := by
  induction budget generalizing d with
  | zero => exact .inl rfl
  | succ budget ih =>
    rw [Nat.add_right_comm, rhoRetry_succ, rhoRetry_succ]
    change Extends _ _ (ite ((rhoF m d.seed).1 ≠ 1 ∧ (rhoF m d.seed).1 ≠ m) _ (ite (limit ≠ 0 ∧ d.fails + 1 ≥ limit) _ _))
    split
    · exact .inr rfl
    · split
      · exact .inr rfl
      · exact ih (d.afterCalls 1 1 (budget + 1))

theorem extends_classify (x : Nat) (d : Driver) :
    Extends (.addBudget k) (classify limit x d) (classify limit x (d.addBudget k)) := by
  simp only [classify, classifyWide_eq, classifyNarrow_eq]
  split
  · split
    · exact extends_emit k _ _ d
    · split
      · exact extends_emit k _ _ d
      · exact (extends_rhoRetry k limit x d.budget d).bind fun r =>
          (extends_emit k _ _ r.2).bind fun d' => extends_emit k _ _ d'
  · change Extends _ _ (ite (d.n % x = 0) _ _)
    split
    · exact (extends_emit k _ _ d).bind fun d' => .inr rfl
    · exact extends_emit k _ _ d

theorem extends_rhoStage (passes : Nat) (d : Driver) :
    Extends (.addBudget k) (rhoStage limit passes d) (rhoStage limit (passes + k) (d.addBudget k)) := by
  induction passes generalizing d with
  | zero => exact .inl rfl
  | succ passes ih =>
    rw [Nat.add_right_comm, rhoStage_succ, rhoStage_succ]
    change Extends _ _ (ite (d.n > Config.word32Max ∧ isprimeF d.n = false) _ _)
    split
    · exact (extends_rhoRetry k limit d.n d.budget d).bind fun r =>
        (extends_classify k limit r.1 _).bind fun d' => ih d'
    · exact .inr rfl

theorem extends_finalResidual (d : Driver) :
    Extends (.addBudget k) (finalResidual d) (finalResidual (d.addBudget k)) := by
  simp only [finalResidual]
  change Extends _ _ (ite (d.n ≠ 1) _ _)
  split
  · exact extends_emit k _ _ d
  · exact .inr rfl

theorem extends_factorF (budget n : Nat) (seed : Word) :
    Extends (.addBudget k) (factorF limit budget n seed) (factorF limit (budget + k) n seed) := by
  rw [factorF_eq, factorF_eq]
  split
  · exact .inr rfl
  · split
    · exact extends_emit k _ _ _
    · refine (extends_stripStage k _).bind fun d1 => (extends_trialStage k d1).bind fun d2 => ?_
      have hpasses : (d2.addBudget k).budget + 1 = d2.budget + 1 + k := Nat.add_right_comm _ _ _
      rw [hpasses]
      exact (extends_rhoStage k limit _ d2).bind fun d3 => extends_finalResidual k d3

end

/-- Settles O42: only a spent budget is answered differently. -/
theorem factorResultIgnoresBudget : Obligations.FactorResultIgnoresBudget := by
  intro limit b b' n seed hle
  obtain ⟨k, rfl⟩ := Nat.exists_eq_add_of_le hle
  have hextends := extends_factorF k limit b n seed
  refine ⟨fun d hd => ?_, fun code seed' herror => ?_⟩
  · rw [hd] at hextends
    exact ⟨d.addBudget k, hextends.resolve_left nofun, rfl, rfl⟩
  · rw [herror] at hextends
    exact hextends.resolve_left nofun

/-! ### FACTOR's core turn (60_exceptions.md R258, R259; 44_factorization.md R210, R218) -/

theorem exec_factor_of_running {ops : Operands} {s : State} (h : Running .factor ops s) :
    exec .factor s = .next (s.finishFactor (factorF Config.rhoRetryLimit s.rhoBudget ops.a.toNat s.seed)) := by
  rw [← h.operands_eq]
  rfl

/-- What FACTOR's error leaves (60_exceptions.md R259). -/
theorem finishFactor_error_spec (s : State) (code : ErrCode) (seed : Word) :
    (s.finishFactor (.error (.error code seed))).held .seed = some seed ∧
      (∀ k, (s.finishFactor (.error (.error code seed))).held (.fbufPrime k) = none ∧
        (s.finishFactor (.error (.error code seed))).held (.fbufPower k) = none) ∧
      SameRegsExceptFbufAnd [.seed, .status] s (s.finishFactor (.error (.error code seed))) ∧
      SameOutside s (s.finishFactor (.error (.error code seed))) := by
  refine ⟨rfl, fun k => ⟨?_, ?_⟩, fun r hr hfbuf => ?_, ⟨rfl, rfl, rfl⟩⟩
  · simp [State.finishFactor, held_completeError, held_setSeed]
  · simp [State.finishFactor, held_completeError, held_setSeed]
  · simp only [List.mem_cons, List.not_mem_nil, or_false, not_or] at hr
    simp [State.finishFactor, held_completeError, held_setSeed, hr, held_forgetFbuf_of_not_fbuf _ r hfbuf]

/-- Settles O40: an error of the driver carries SEED after the calls it made, and only a limit raises RETRY_LIMIT. -/
theorem factorErrorLeavesResults : Obligations.FactorErrorLeavesResults := by
  refine ⟨fun s ops hrun => exec_factor_of_running hrun, fun s ops code seed hrun =>
    ⟨_, rfl, failed_finishFactor s code seed, finishFactor_error_spec s code seed⟩,
    fun limit budget n seed code seed' herror => ?_, fun budget n seed seed' herror => ?_⟩
  · exact ((callsMade_factorF limit budget n seed).of_error herror).2
  · have hstop := ((callsMade_factorF 0 budget n seed).of_error herror).1
    simp at hstop

/-- Settles O41: a spent budget adds to the core turns alone, and so to the next budget. -/
theorem unfinishedFactorStaysBusy : Obligations.UnfinishedFactorStaysBusy := by
  intro s ops hrun
  refine ⟨exec_factor_of_running hrun, _, rfl, rfl, fun r _ => held_withCoreTurns s _ r, ⟨rfl, rfl, rfl⟩, ?_⟩
  simp only [State.finishFactor, State.rhoBudget, Config.rhoCallsPerTurn]
  omega

/-- What FACTOR's records leave in FBUF (44_factorization.md R218). -/
theorem finishFactor_ok_entry (s : State) (d : Driver) (k : Fin 16) :
    (s.finishFactor (.ok d)).fbuf[k.val] = (s.setFbuf d.records).fbuf[k.val] ∧
      (s.finishFactor (.ok d)).unspecified.fbuf[k.val] = (s.setFbuf d.records).unspecified.fbuf[k.val] := ⟨rfl, rfl⟩

theorem finishFactor_ok_record (s : State) {d : Driver} {k : Fin 16} {e : FactorRecord} (h : d.records[k.val]? = some e) :
    (s.finishFactor (.ok d)).entryIs k e := by
  obtain ⟨hk, rfl⟩ := List.getElem?_eq_some_iff.mp h
  obtain ⟨hentry, hflag⟩ := finishFactor_ok_entry s d k
  refine ⟨?_, ?_⟩
  · rw [hflag, setFbuf_entry_unspecified, if_pos hk.le]
  · rw [hentry, setFbuf_entry, if_pos hk, List.getD_eq_getElem _ _ hk]

theorem finishFactor_ok_sentinel (s : State) {d : Driver} {k : Fin 16} (h : k.val = d.records.length) :
    (s.finishFactor (.ok d)).entryIs k FactorRecord.sentinel := by
  obtain ⟨hentry, hflag⟩ := finishFactor_ok_entry s d k
  refine ⟨?_, ?_⟩
  · rw [hflag, setFbuf_entry_unspecified, if_pos h.le]
  · rw [hentry, setFbuf_entry, if_neg h.not_lt, if_pos h]
    rfl

theorem finishFactor_ok_later (s : State) {d : Driver} {k : Fin 16} (h : d.records.length < k.val) :
    (s.finishFactor (.ok d)).held (.fbufPrime k) = s.held (.fbufPrime k) ∧
      (s.finishFactor (.ok d)).held (.fbufPower k) = s.held (.fbufPower k) := by
  obtain ⟨hentry, hflag⟩ := finishFactor_ok_entry s d k
  rw [setFbuf_entry, if_neg (by omega), if_neg (by omega)] at hentry
  rw [setFbuf_entry_unspecified, if_neg (by omega)] at hflag
  simp only [State.held, hentry, hflag, and_self]

theorem finishFactor_ok_frame (s : State) (d : Driver) :
    (s.finishFactor (.ok d)).held .res0 = some (BitVec.ofNat 64 d.records.length) ∧
      (s.finishFactor (.ok d)).held .seed = some d.seed ∧
      SameRegsExceptFbufAnd [.res0, .seed, .status] s (s.finishFactor (.ok d)) ∧
      SameOutside s (s.finishFactor (.ok d)) := by
  refine ⟨?_, ?_, fun r hr hfbuf => ?_, ⟨?_, ?_, ?_⟩⟩
  · simp [State.finishFactor, held_complete, held_setRes0]
  · simp [State.finishFactor, held_complete, held_setRes0, held_setSeed]
  · simp only [List.mem_cons, List.not_mem_nil, or_false, not_or] at hr
    simp [State.finishFactor, held_complete, held_setRes0, held_setSeed, hr, held_setFbuf_of_not_fbuf _ _ r hfbuf]
  all_goals simp [State.finishFactor]

/-- Settles O35: the registers take the driver's records, their number and its SEED. -/
theorem factorWritesRecordsAndSentinel : Obligations.FactorWritesRecordsAndSentinel := by
  intro s ops d hrun hanswer
  obtain ⟨hle, hseed, hroom⟩ := (callsMade_factorF _ _ _ _).of_ok hanswer
  obtain ⟨hheldRes0, hheldSeed, hregs, houtside⟩ := finishFactor_ok_frame s d
  exact ⟨_, ⟨d.records.length, by omega⟩, by rw [exec_factor_of_running hrun, hanswer], succeeded_finishFactor s d, rfl,
    hheldRes0, hheldSeed, hle, hseed, fun k e _ hrecord => finishFactor_ok_record s hrecord,
    finishFactor_ok_sentinel s rfl, fun k hk => finishFactor_ok_later s hk, hregs, houtside⟩

end Sys2Proof.Machine
end

section
/-! PROOFS of the statements about FACTOR's records (44_factorization.md R218 to R222). Through all steps the recorded
powers and the residual's power multiply to the operand, and what is recorded passes the tester. Trial division leaves a
residual that is 1, prime, or above 32 bits with no prime factor below 2^16; of the latter's divisors those of at most 32
bits are prime. -/

namespace Sys2Proof.Machine

/-! ### Residuals without small prime factors -/

/-- No prime factor below 2^16. -/
def HighRough (x : Nat) : Prop := ∀ q, q.Prime → q ∣ x → 2 ^ 16 ≤ q

theorem HighRough.of_dvd {x y : Nat} (h : HighRough x) (hdvd : y ∣ x) : HighRough y :=
  fun q hq hqy => h q hq (hqy.trans hdvd)

/-- There is no prime from TRIAL_CAP up to 2^16. -/
theorem two_pow_le_of_prime {q : Nat} (hq : q.Prime) (hcap : Config.trialCap ≤ q) : 2 ^ 16 ≤ q := by
  by_contra hsmall
  have hlt : q < 65536 := not_le.mp hsmall
  simp only [Config.trialCap] at hcap
  interval_cases q <;> revert hq <;> norm_num

theorem HighRough.le {x : Nat} (h : HighRough x) (hx : x ≠ 1) (hpos : x ≠ 0) : 2 ^ 16 ≤ x :=
  (h x.minFac (Nat.minFac_prime hx) x.minFac_dvd).trans (Nat.minFac_le (Nat.pos_of_ne_zero hpos))

/-- Trial division by every prime up to the root leaves 1 or a prime. -/
theorem prime_of_rough {p x : Nat} (hrough : ∀ q, q.Prime → q ∣ x → p ≤ q) (hx : x ≠ 1) (hpos : x ≠ 0)
    (hlt : x < p * p) : x.Prime := by
  by_contra hcomposite
  have hsquare : x.minFac ^ 2 ≤ x := Nat.minFac_sq_le_self (Nat.pos_of_ne_zero hpos) hcomposite
  have hle : p ≤ x.minFac := hrough _ (Nat.minFac_prime hx) x.minFac_dvd
  nlinarith

theorem HighRough.prime {x : Nat} (h : HighRough x) (hx : x ≠ 1) (hpos : x ≠ 0) (hnarrow : x ≤ Config.word32Max) :
    x.Prime :=
  prime_of_rough h hx hpos (by simp only [Config.word32Max] at hnarrow; omega)

/-! ### Records -/

/-- What a record stands for: PRIME^POWER (44_factorization.md R220). -/
def FactorRecord.value (e : FactorRecord) : Nat := e.prime.toNat ^ e.power.toNat

/-- What a PRIME must meet to be recorded (44_factorization.md R222). -/
structure Passes (q : Nat) : Prop where
  tester : isprimeF q = true
  narrow : q ≤ Config.word32Max → q.Prime

theorem passes_of_prime {q : Nat} (hq : q.Prime) (hlt : q < 2 ^ 64) : Passes q :=
  ⟨isprimeAcceptsEveryPrime q hlt hq, fun _ => hq⟩

theorem Passes.one_lt {q : Nat} (h : Passes q) : 1 < q := by
  by_cases hnarrow : q ≤ Config.word32Max
  · exact (h.narrow hnarrow).one_lt
  · simp only [Config.word32Max] at hnarrow
    omega

/-- A record that may stand in FBUF. -/
structure Sound (e : FactorRecord) : Prop where
  passes : Passes e.prime.toNat
  power_pos : 1 ≤ e.power.toNat

/-- The product of the records. -/
def recordsProduct (l : List FactorRecord) : Nat := (l.map FactorRecord.value).prod

theorem recordsProduct_append (l : List FactorRecord) (e : FactorRecord) :
    recordsProduct (l ++ [e]) = recordsProduct l * e.value := by
  simp [recordsProduct]

/-- What every step keeps: the records and the residual's power multiply to `n`. -/
structure Factoring (n : Nat) (d : Driver) : Prop where
  product : recordsProduct d.records * d.n ^ d.pow = n
  sound : ∀ e ∈ d.records, Sound e
  pow_pos : 1 ≤ d.pow

/-- What holds of the records alone at the end. -/
structure Factored (n : Nat) (d : Driver) : Prop where
  product : recordsProduct d.records = n
  sound : ∀ e ∈ d.records, Sound e

/-- A power below 2^64 of a base above 1 has an exponent below 64. -/
theorem exponent_lt_of_pow_lt {q e : Nat} (hq : 1 < q) (h : q ^ e < 2 ^ 64) : e < 64 := by
  by_contra hlarge
  have htwo : 2 ^ 64 ≤ q ^ e := (Nat.pow_le_pow_left hq 64).trans (Nat.pow_le_pow_right (by omega) (not_lt.mp hlarge))
  omega

/-- The record that EMIT writes. -/
def newRecord (q e : Nat) : FactorRecord := { prime := BitVec.ofNat 64 q, power := BitVec.ofNat 32 e }

/-- A prime power below 2^64 stands in a record as it is (44_factorization.md R218). -/
theorem newRecord_fields {q e : Nat} (hq : 1 < q) (he : 1 ≤ e) (h : q ^ e < 2 ^ 64) :
    (newRecord q e).prime.toNat = q ∧ (newRecord q e).power.toNat = e := by
  have hle : q ≤ q ^ e := Nat.le_self_pow (by omega) q
  have hexponent : e < 64 := exponent_lt_of_pow_lt hq h
  refine ⟨toNat_ofNat_of_lt (hle.trans_lt h), ?_⟩
  rw [newRecord, BitVec.toNat_ofNat, Nat.mod_eq_of_lt (by omega)]

/-- The driver after EMIT. -/
def Driver.record (d : Driver) (q e : Nat) : Driver := { d with records := d.records ++ [newRecord q e] }

/-- What holds of every driver that the step can answer. -/
def Answers {α : Type} (post : α → Prop) : Except DriverStop α → Prop := Meets post fun _ => True

theorem answers_emit {post : Driver → Prop} {q e : Nat} {d : Driver} (h : post (d.record q e)) :
    Answers post (emit q e d) := by
  cases hemit : emit q e d with
  | ok d' =>
    obtain ⟨-, rfl⟩ := emit_ok hemit
    exact h
  | error stop => trivial

theorem Factoring.start (budget n : Nat) (seed : Word) : Factoring n (.start budget n seed) :=
  ⟨by simp [recordsProduct, Driver.start], by simp [Driver.start], le_rfl⟩

theorem Factoring.residual_dvd {n : Nat} {d : Driver} (h : Factoring n d) : d.n ∣ n :=
  (dvd_pow_self d.n (by have := h.pow_pos; omega)).trans (h.product ▸ Nat.dvd_mul_left _ _)

theorem Factoring.ne_zero {n : Nat} {d : Driver} (h : Factoring n d) (hn : n ≠ 0) : d.n ≠ 0 :=
  ne_zero_of_dvd_ne_zero hn h.residual_dvd

section
variable {n : Nat} {d : Driver} (hn : n ≠ 0) (hn64 : n < 2 ^ 64)
include hn hn64

theorem lt_two_pow_of_dvd {m : Nat} (hdvd : m ∣ n) : m < 2 ^ 64 :=
  (Nat.le_of_dvd (Nat.pos_of_ne_zero hn) hdvd).trans_lt hn64

/-- A record for a prime power of what is left keeps the records sound and moves the power into their product. -/
theorem sound_record {q e m : Nat} (hsound : ∀ r ∈ d.records, Sound r) (hq : Passes q) (he : 1 ≤ e)
    (hproduct : recordsProduct d.records * (q ^ e * m) = n) :
    recordsProduct (d.record q e).records * m = n ∧ ∀ r ∈ (d.record q e).records, Sound r := by
  have hdvd : q ^ e ∣ n := hproduct ▸ (Nat.dvd_mul_right _ m).mul_left _
  obtain ⟨hprime, hpower⟩ := newRecord_fields hq.one_lt he (lt_two_pow_of_dvd hn hn64 hdvd)
  have hvalue : (newRecord q e).value = q ^ e := by rw [FactorRecord.value, hprime, hpower]
  refine ⟨?_, fun r hr => ?_⟩
  · rw [Driver.record, recordsProduct_append, hvalue, mul_assoc, hproduct]
  · rcases List.mem_append.mp hr with hold | hnew
    · exact hsound r hold
    · rw [List.mem_singleton.mp hnew]
      exact ⟨by rwa [hprime], by rwa [hpower]⟩

theorem Factoring.record (h : Factoring n d) {q e n' pow' : Nat} (hq : Passes q) (he : 1 ≤ e) (hpow' : 1 ≤ pow')
    (hsplit : d.n ^ d.pow = q ^ e * n' ^ pow') : Factoring n ((d.record q e).withResidual n' pow') := by
  obtain ⟨hproduct, hsound⟩ := sound_record hn hn64 h.sound hq he (hsplit ▸ h.product)
  exact ⟨hproduct, hsound, hpow'⟩

theorem Factoring.pow_lt (h : Factoring n d) : d.n ^ d.pow < 2 ^ 64 :=
  lt_two_pow_of_dvd hn hn64 (h.product ▸ Nat.dvd_mul_left _ _)

/-- A residual above 32 bits stands for itself: its square does not fit in 64 bits. -/
theorem Factoring.pow_eq_one (h : Factoring n d) (hwide : Config.word32Max < d.n) : d.pow = 1 := by
  by_contra hpow
  have htwo : 2 ≤ d.pow := by have := h.pow_pos; omega
  have hsquare : (2 ^ 32) ^ 2 ≤ d.n ^ d.pow :=
    (Nat.pow_le_pow_left hwide 2).trans (Nat.pow_le_pow_right (h.ne_zero hn).bot_lt htwo)
  have hlt := h.pow_lt hn hn64
  omega

/-- SQPOW_F keeps what the residual stands for, and its multiplier does not wrap (44_factorization.md R218). -/
theorem Factoring.sqpow (h : Factoring n d) (hpow : d.pow < 2 ^ 32) :
    Factoring n (d.withResidual (sqpowF d.n d.pow).n (sqpowF d.n d.pow).pow) := by
  obtain ⟨j, -, hzero, hpower, -, hmultiplier⟩ :=
    exists_reducedBy_sqpowF (lt_two_pow_of_dvd hn hn64 h.residual_dvd) hpow
  have hsame : (sqpowF d.n d.pow).n ^ (d.pow * 2 ^ j) = d.n ^ d.pow := by rw [mul_comm, pow_mul, ← hpower]
  have hnowrap : d.pow * 2 ^ j < 2 ^ 32 := by
    by_cases hone : d.n ≤ 1
    · rwa [hzero hone, pow_zero, mul_one]
    · have hbase : 1 < (sqpowF d.n d.pow).n := by
        by_contra hsmall
        have hle : d.n ≤ 1 := hpower.trans_le (pow_le_one' (not_lt.mp hsmall) _)
        exact hone hle
      have hexponent := exponent_lt_of_pow_lt hbase (hsame ▸ h.pow_lt hn hn64)
      omega
  rw [Nat.mod_eq_of_lt hnowrap] at hmultiplier
  refine ⟨?_, h.sound, ?_⟩
  · change recordsProduct d.records * (sqpowF d.n d.pow).n ^ (sqpowF d.n d.pow).pow = n
    rw [hmultiplier, hsame, h.product]
  · change 1 ≤ (sqpowF d.n d.pow).pow
    rw [hmultiplier]
    exact Nat.mul_pos h.pow_pos (by positivity)

end

/-! ### Steps 2 and 3 (44_factorization.md R211, R213) -/

/-- What steps 2 and 3 keep, with every prime below `p` divided out and only primes below `p` recorded, ascending. -/
structure TrialState (n p : Nat) (d : Driver) : Prop where
  trialled : Trialled p d
  factoring : Factoring n d
  below : ∀ e ∈ d.records, e.prime.toNat < p
  ascending : (d.records.map fun e => e.prime.toNat).Pairwise (· < ·)

/-- What step 3 leaves and step 4 keeps of the residual. -/
structure Residual (d : Driver) : Prop where
  narrow : d.n ≤ Config.word32Max → d.n ≠ 1 → d.n.Prime
  wide : Config.word32Max < d.n → HighRough d.n

section
variable {n : Nat} {d : Driver} (hn : n ≠ 0) (hn64 : n < 2 ^ 64)
include hn hn64

theorem TrialState.start (budget : Nat) (seed : Word) : TrialState n 2 (.start budget n seed) where
  trialled := ⟨.start hn hn64, fun _ hq _ => hq.two_le, by simp [Driver.start]⟩
  factoring := .start budget n seed
  below := by simp [Driver.start]
  ascending := by simp [Driver.start]

theorem TrialState.sqpow {p : Nat} (h : TrialState n p d) :
    TrialState n p (d.withResidual (sqpowF d.n d.pow).n (sqpowF d.n d.pow).pow) :=
  ⟨h.trialled.sqpow, h.factoring.sqpow hn hn64 h.trialled.pow_lt, h.below, h.ascending⟩

omit hn hn64 in
theorem TrialState.succ {p : Nat} (h : TrialState n p d) (hrest : ¬ p ∣ d.n) : TrialState n (p + 1) d :=
  ⟨h.trialled.succ hrest, h.factoring, fun e he => (h.below e he).trans (Nat.lt_succ_self p), h.ascending⟩

omit hn hn64 in
/-- After an odd candidate the next odd number is next, because the even one between is no prime. -/
theorem TrialState.skipEven {p : Nat} (h : TrialState n (p + 1) d) (hodd : p % 2 = 1) (hthree : 3 ≤ p) :
    TrialState n (p + 2) d := by
  refine ⟨⟨h.trialled.accounted, fun q hq hdvd => ?_, h.trialled.pow_lt⟩, h.factoring,
    fun e he => (h.below e he).trans (Nat.lt_succ_self _), h.ascending⟩
  have hle : p + 1 ≤ q := h.trialled.rough q hq hdvd
  have hqodd : q % 2 = 1 := hq.eq_two_or_odd.resolve_left (by omega)
  omega

/-- Dividing a prime out entirely, with a record for it. -/
theorem TrialState.divide {p : Nat} (h : TrialState n p d) (hp : p.Prime) (hdvd : p ∣ d.n) :
    TrialState n (p + 1) ((d.record p ((divideOut p 64 d.n 0).2 * d.pow)).withResidual (divideOut p 64 d.n 0).1 d.pow) := by
  have hn0 : d.n ≠ 0 := h.factoring.ne_zero hn
  have hlt : d.n < 2 ^ 64 := lt_two_pow_of_dvd hn hn64 h.factoring.residual_dvd
  have hplt : p < 2 ^ 64 := (Nat.le_of_dvd (Nat.pos_of_ne_zero hn0) hdvd).trans_lt hlt
  obtain ⟨hsplit, hrest⟩ := divideOut_64 hp.one_lt hn0 hlt
  have hcount : 1 ≤ (divideOut p 64 d.n 0).2 := by
    by_contra hzero
    rw [Nat.lt_one_iff.mp (not_le.mp hzero), pow_zero, one_mul] at hsplit
    exact hrest (hsplit ▸ hdvd)
  have hpow : d.n ^ d.pow = p ^ ((divideOut p 64 d.n 0).2 * d.pow) * (divideOut p 64 d.n 0).1 ^ d.pow := by
    rw [pow_mul, ← mul_pow, ← hsplit]
  have hprime : ∀ e, (newRecord p e).prime.toNat = p := fun e => toNat_ofNat_of_lt hplt
  refine ⟨(h.trialled.recorded hp hdvd _).succ hrest, h.factoring.record hn hn64 (passes_of_prime hp hplt)
    (Nat.mul_pos hcount h.factoring.pow_pos) h.factoring.pow_pos hpow, fun e he => ?_, ?_⟩
  · rcases List.mem_append.mp he with hold | hnew
    · exact (h.below e hold).trans (Nat.lt_succ_self p)
    · rw [List.mem_singleton.mp hnew, hprime]
      exact Nat.lt_succ_self p
  · change ((d.records ++ [newRecord p _]).map fun e => e.prime.toNat).Pairwise (· < ·)
    rw [List.map_append, List.pairwise_append]
    refine ⟨h.ascending, by simp, fun a ha b hb => ?_⟩
    obtain ⟨e, he, rfl⟩ := List.mem_map.mp ha
    rw [List.map_singleton, List.mem_singleton, hprime] at hb
    exact hb ▸ h.below e he

theorem TrialState.answers_stripStage (h : TrialState n 2 d) (hpow : d.pow = 1) :
    Answers (TrialState n 3) (stripStage d) := by
  obtain ⟨hsplit, hrest⟩ := divideOut_64 one_lt_two (h.factoring.ne_zero hn)
    (lt_two_pow_of_dvd hn hn64 h.factoring.residual_dvd)
  rw [stripStage_eq]
  split
  · next hcount =>
    have hdvd : 2 ∣ d.n := hsplit ▸ (dvd_pow_self 2 hcount.ne').mul_right _
    have hdivided := h.divide hn hn64 Nat.prime_two hdvd
    rw [hpow, mul_one] at hdivided
    rw [hpow]
    exact answers_emit hdivided
  · next hcount =>
    rw [Nat.le_zero.mp (not_lt.mp hcount), pow_zero, one_mul] at hsplit
    rw [← hsplit] at hrest ⊢
    exact h.succ hrest

/-- Where the trial division may end: past the residual's root, or at TRIAL_CAP. -/
def TrialEnd (n : Nat) (d : Driver) : Prop :=
  ∃ p, TrialState n p d ∧ (d.n < p * p ∨ Config.trialCap ≤ p)

theorem TrialState.answers_trialLoop {passes p bound : Nat} (h : TrialState n p d) (hodd : p % 2 = 1) (hthree : 3 ≤ p)
    (hbound : bound = trialBound d.n) (hpasses : Config.trialCap ≤ p + 2 * passes) :
    Answers (TrialEnd n) (trialLoop passes p bound d) := by
  induction passes generalizing p bound d with
  | zero => exact ⟨p, h, .inr hpasses⟩
  | succ passes ih =>
    rw [trialLoop_succ]
    split
    · split
      · next hmod =>
        have hdvd : p ∣ d.n := Nat.dvd_of_mod_eq_zero hmod
        have hp : p.Prime := h.trialled.prime (by omega) hdvd
        have hdivided := (h.divide hn hn64 hp hdvd).skipEven hodd hthree
        refine (answers_emit (post := fun d' => d' = d.record p _) rfl).bind ?_
        rintro d' rfl
        exact ih (hdivided.sqpow hn hn64) (by omega) (by omega) rfl (by omega)
      · next hmod =>
        have hrest : ¬ p ∣ d.n := fun hdvd => hmod (Nat.mod_eq_zero_of_dvd hdvd)
        exact ih ((h.succ hrest).skipEven hodd hthree) (by omega) (by omega) hbound (by omega)
    · next hend =>
      refine ⟨p, h, ?_⟩
      rw [hbound, trialBound_eq] at hend
      split at hend
      · exact .inr (not_lt.mp hend)
      · exact .inl (Nat.sqrt_lt.mp (Nat.lt_of_succ_le (not_lt.mp hend)))

theorem TrialState.answers_trialStage (h : TrialState n 3 d) : Answers (TrialEnd n) (trialStage d) := by
  rw [trialStage_eq]
  split
  · exact (h.sqpow hn hn64).answers_trialLoop hn hn64 rfl le_rfl rfl (by decide)
  · next hsmall => exact ⟨3, h, .inl (by omega)⟩

omit hn64 in
theorem TrialEnd.residual (h : TrialEnd n d) : Residual d := by
  obtain ⟨p, hstate, hend⟩ := h
  have hn0 : d.n ≠ 0 := hstate.factoring.ne_zero hn
  have hrough : ∀ q, q.Prime → q ∣ d.n → p ≤ q := hstate.trialled.rough
  have hcap : Config.trialCap ≤ p → HighRough d.n := fun hcap q hq hdvd =>
    two_pow_le_of_prime hq (hcap.trans (hrough q hq hdvd))
  refine ⟨fun hnarrow hone => ?_, fun hwide => ?_⟩
  · rcases hend with hroot | hpast
    · exact prime_of_rough hrough hone hn0 hroot
    · exact (hcap hpast).prime hone hn0 hnarrow
  · rcases hend with hroot | hpast
    · have hlarge : 2 ^ 16 ≤ p := by
        simp only [Config.word32Max] at hwide
        by_contra hsmall
        have hsquare : p * p ≤ 65535 * 65535 := Nat.mul_le_mul (by omega) (by omega)
        omega
      exact fun q hq hdvd => hlarge.trans (hrough q hq hdvd)
    · exact hcap hpast

end

/-! ### Step 4 (44_factorization.md R214 to R216) -/

/-- A retry loop on `m` splits a proper divisor off, and changes SEED, the failed calls and the budget alone. -/
structure SplitsOff (m : Nat) (d : Driver) (r : Nat × Driver) : Prop where
  dvd : r.1 ∣ m
  ne_one : r.1 ≠ 1
  ne_self : r.1 ≠ m
  calls : ∃ k failed budget, r.2 = d.afterCalls k failed budget

theorem answers_rhoRetry (limit m budget : Nat) (d : Driver) : Answers (SplitsOff m d) (rhoRetry limit m budget d) := by
  have houtcome := retryOutcome limit m budget d
  generalize rhoRetry limit m budget d = answer at houtcome ⊢
  cases houtcome with
  | found k hk hfails hfound hlimit =>
    obtain ⟨hone, hself⟩ := not_or.mp hfound
    exact ⟨rhoF_fst_dvd _ _, hone, hself, _, _, _, rfl⟩
  | limitReached => trivial
  | spent => trivial

/-- Three factors above 1 of a 64-bit number without small prime factors have at most 32 bits each. -/
theorem HighRough.le_word32Max {x y z : Nat} (h : HighRough (x * y * z)) (hpos : x * y * z ≠ 0)
    (hlt : x * y * z < 2 ^ 64) (hy : y ≠ 1) (hz : z ≠ 1) : x ≤ Config.word32Max := by
  have hylarge : 2 ^ 16 ≤ y := (h.of_dvd ((Nat.dvd_mul_left y x).mul_right z)).le hy (by rintro rfl; simp at hpos)
  have hzlarge : 2 ^ 16 ≤ z := (h.of_dvd (Nat.dvd_mul_left z _)).le hz (by rintro rfl; simp at hpos)
  have hproduct : x * (2 ^ 16 * 2 ^ 16) ≤ x * y * z := by
    rw [mul_assoc]
    exact Nat.mul_le_mul_left x (Nat.mul_le_mul hylarge hzlarge)
  simp only [Config.word32Max]
  omega

/-- `x` is split off the residual and not yet recorded. -/
structure SplitOff (n x : Nat) (d : Driver) : Prop where
  product : recordsProduct d.records * (x * d.n) = n
  sound : ∀ e ∈ d.records, Sound e
  unit_pow : d.pow = 1
  rough : HighRough (x * d.n)
  ne_one : x ≠ 1
  left_ne_one : d.n ≠ 1

/-- What step 4 keeps once it has split a residual. -/
structure Working (n : Nat) (d : Driver) : Prop where
  factoring : Factoring n d
  rough : HighRough d.n

theorem Working.residual {n : Nat} {d : Driver} (h : Working n d) (hn : n ≠ 0) : Residual d :=
  ⟨fun hnarrow hone => h.rough.prime hone (h.factoring.ne_zero hn) hnarrow, fun _ => h.rough⟩

theorem SplitOff.afterCalls {n x : Nat} {d : Driver} (h : SplitOff n x d) (k failed budget : Nat) :
    SplitOff n x (d.afterCalls k failed budget) :=
  ⟨h.product, h.sound, h.unit_pow, h.rough, h.ne_one, h.left_ne_one⟩

section
variable {n : Nat} {d : Driver} (hn : n ≠ 0) (hn64 : n < 2 ^ 64)
include hn hn64

/-- A wide residual that a retry loop splits. -/
theorem Factoring.splitOff (h : Factoring n d) (hresidual : Residual d) (hwide : Config.word32Max < d.n)
    {r : Nat × Driver} (hr : SplitsOff d.n d r) : SplitOff n r.1 (r.2.withResidual (r.2.n / r.1) r.2.pow) := by
  obtain ⟨x, d'⟩ := r
  obtain ⟨hdvd, hone, hself, k, failed, budget, hd'⟩ := hr
  simp only at hdvd hone hself hd' ⊢
  subst hd'
  have hpow : d.pow = 1 := h.pow_eq_one hn hn64 hwide
  have hsplit : x * (d.n / x) = d.n := Nat.mul_div_cancel' hdvd
  have hproduct : recordsProduct d.records * d.n ^ d.pow = n := h.product
  rw [hpow, pow_one] at hproduct
  refine ⟨?_, h.sound, hpow, ?_, hone, fun hleft => hself ?_⟩
  · change recordsProduct d.records * (x * (d.n / x)) = n
    rw [hsplit, hproduct]
  · change HighRough (x * (d.n / x))
    rw [hsplit]
    exact hresidual.wide hwide
  · exact Nat.eq_of_dvd_of_div_eq_one hdvd hleft

section
variable {x : Nat} (h : SplitOff n x d)
include h

theorem SplitOff.lt : x * d.n < 2 ^ 64 := lt_two_pow_of_dvd hn hn64 (h.product ▸ Nat.dvd_mul_left _ _)

omit hn64 in
theorem SplitOff.ne_zero : x * d.n ≠ 0 := ne_zero_of_dvd_ne_zero hn (h.product ▸ Nat.dvd_mul_left _ _)

omit hn64 in
/-- A divisor of at most 32 bits of what is split off is prime. -/
theorem SplitOff.passes {q : Nat} (hq : q ∣ x) (hone : q ≠ 1) (hnarrow : q ≤ Config.word32Max) : Passes q := by
  have hq0 : q ≠ 0 := ne_zero_of_dvd_ne_zero (left_ne_zero_of_mul (h.ne_zero hn)) hq
  have hprime : q.Prime := (h.rough.of_dvd (hq.mul_right d.n)).prime hone hq0 hnarrow
  exact passes_of_prime hprime (hnarrow.trans_lt (by decide))

/-- One record for all of `x`. -/
theorem SplitOff.record {q e : Nat} (hq : Passes q) (he : 1 ≤ e) (hx : x = q ^ e) : Working n (d.record q e) := by
  obtain ⟨hproduct, hsound⟩ := sound_record hn hn64 h.sound hq he (hx ▸ h.product)
  refine ⟨⟨?_, hsound, h.unit_pow.ge⟩, h.rough.of_dvd (Nat.dvd_mul_left _ _)⟩
  change recordsProduct (d.record q e).records * d.n ^ d.pow = n
  rw [h.unit_pow, pow_one, hproduct]

/-- One record for a part of `x`. -/
theorem SplitOff.recordPart {y z : Nat} (hy : Passes y) (hx : x = y * z) (hz : z ≠ 1) :
    SplitOff n z (d.record y 1) := by
  have hsplit : recordsProduct d.records * (y ^ 1 * (z * d.n)) = n := by
    rw [pow_one, ← mul_assoc y, ← hx, h.product]
  obtain ⟨hproduct, hsound⟩ := sound_record hn hn64 h.sound hy le_rfl hsplit
  have hdvd : z * d.n ∣ x * d.n := Nat.mul_dvd_mul_right (hx ▸ Nat.dvd_mul_left z y) d.n
  exact ⟨hproduct, hsound, h.unit_pow, h.rough.of_dvd hdvd, hz, h.left_ne_one⟩

/-- CLASSIFY_WIDE records a square root, a number that passes the tester, or two primes. -/
theorem SplitOff.answers_classifyWide (limit : Nat) (hwide : Config.word32Max < x) :
    Answers (Working n) (classifyWide limit x d) := by
  have hxlt : x < 2 ^ 64 :=
    (Nat.le_mul_of_pos_right x (Nat.pos_of_ne_zero (right_ne_zero_of_mul (h.ne_zero hn)))).trans_lt (h.lt hn hn64)
  rw [classifyWide_eq, isqrtF_eq_sqrt, h.unit_pow]
  split
  · next hsquare =>
    have hroot : Nat.sqrt x < 2 ^ 32 := sqrt_lt_two_pow hxlt
    have hpasses : Passes (Nat.sqrt x) := h.passes hn ⟨_, hsquare.symm⟩
      (fun hone => h.ne_one (by rw [← hsquare, hone])) (Nat.le_of_lt_succ hroot)
    exact answers_emit (h.record hn hn64 hpasses (by decide) (by rw [pow_two, hsquare]))
  · split
    · next htest =>
      have hpasses : Passes x := ⟨htest, fun hnarrow => absurd hwide hnarrow.not_gt⟩
      exact answers_emit (h.record hn hn64 hpasses le_rfl (pow_one x).symm)
    · refine (answers_rhoRetry limit x d.budget d).bind ?_
      rintro ⟨y, d'⟩ ⟨hdvd, hone, hself, k, failed, budget, hd'⟩
      obtain ⟨z, rfl⟩ : y ∣ x := hdvd
      simp only at hone hself hd' ⊢
      subst hd'
      have hz : z ≠ 1 := by rintro rfl; exact hself (mul_one y).symm
      have hy0 : 0 < y := Nat.pos_of_ne_zero (left_ne_zero_of_mul (left_ne_zero_of_mul (h.ne_zero hn)))
      have hynarrow : y ≤ Config.word32Max := h.rough.le_word32Max (h.ne_zero hn) (h.lt hn hn64) hz h.left_ne_one
      have hznarrow : z ≤ Config.word32Max := by
        refine HighRough.le_word32Max (y := y) (z := d.n) ?_ ?_ ?_ hone h.left_ne_one
        · rw [mul_comm z]; exact h.rough
        · rw [mul_comm z]; exact h.ne_zero hn
        · rw [mul_comm z]; exact h.lt hn hn64
      have hypasses : Passes y := h.passes hn (Nat.dvd_mul_right y z) hone hynarrow
      have hzpasses : Passes z := h.passes hn (Nat.dvd_mul_left z y) hz hznarrow
      have hpart := (h.afterCalls k failed budget).recordPart hn hn64 hypasses rfl hz
      rw [Nat.mul_div_cancel_left z hy0, (h.afterCalls k failed budget).unit_pow]
      refine (answers_emit (post := fun d' => d' = (d.afterCalls k failed budget).record y 1) rfl).bind ?_
      rintro d' rfl
      rw [hpart.unit_pow]
      exact answers_emit (hpart.record hn hn64 hzpasses le_rfl (pow_one z).symm)

/-- CLASSIFY_NARROW records a prime, squared when it divides what is left. -/
theorem SplitOff.answers_classifyNarrow (hnarrow : x ≤ Config.word32Max) : Answers (Working n) (classifyNarrow x d) := by
  have hpasses : Passes x := h.passes hn dvd_rfl h.ne_one hnarrow
  rw [classifyNarrow_eq, h.unit_pow]
  split
  · next hmod =>
    have hdvd : x ∣ d.n := Nat.dvd_of_mod_eq_zero hmod
    have hsquare : x * d.n = x ^ 2 * (d.n / x) := by rw [pow_two, mul_assoc, Nat.mul_div_cancel' hdvd]
    obtain ⟨hproduct, hsound⟩ := sound_record hn hn64 h.sound hpasses (e := 2) (by decide) (hsquare ▸ h.product)
    refine (answers_emit (post := fun d' => d' = d.record x 2) rfl).bind ?_
    rintro d' rfl
    refine ⟨⟨?_, hsound, h.unit_pow.ge⟩, h.rough.of_dvd ((Nat.div_dvd_of_dvd hdvd).mul_left x)⟩
    change recordsProduct (d.record x 2).records * (d.n / x) ^ d.pow = n
    rw [h.unit_pow, pow_one, hproduct]
  · exact answers_emit (h.record hn hn64 hpasses le_rfl (pow_one x).symm)

theorem SplitOff.answers_classify (limit : Nat) : Answers (Working n) (classify limit x d) := by
  rw [classify]
  split
  · next hwide => exact h.answers_classifyWide hn hn64 limit hwide
  · next hnarrow => exact h.answers_classifyNarrow hn hn64 (not_lt.mp hnarrow)

end

/-- Step 4 ends on a residual that is narrow or passes the tester. -/
theorem Factoring.answers_rhoStage (limit passes : Nat) (h : Factoring n d) (hresidual : Residual d) :
    Answers (fun d' => Factoring n d' ∧ (d'.n ≠ 1 → Passes d'.n)) (rhoStage limit passes d) := by
  induction passes generalizing d with
  | zero => trivial
  | succ passes ih =>
    rw [rhoStage_succ]
    split
    · next hwide =>
      refine (answers_rhoRetry limit d.n d.budget d).bind fun r hr => ?_
      refine ((h.splitOff hn hn64 hresidual hwide.1 hr).answers_classify hn hn64 limit).bind fun d' hd' => ?_
      exact ih hd'.factoring (hd'.residual hn)
    · next hend =>
      refine ⟨h, fun hone => ?_⟩
      by_cases hnarrow : d.n ≤ Config.word32Max
      · exact passes_of_prime (hresidual.narrow hnarrow hone) (hnarrow.trans_lt (by decide))
      · have htest : isprimeF d.n = true := by simpa [not_le.mp hnarrow] using hend
        exact ⟨htest, fun hle => absurd hle hnarrow⟩

/-! ### The whole driver -/

theorem Factoring.answers_finalResidual (h : Factoring n d) (hpasses : d.n ≠ 1 → Passes d.n) :
    Answers (Factored n) (finalResidual d) := by
  rw [finalResidual]
  split
  · next hone =>
    have hsplit : d.n ^ d.pow = d.n ^ d.pow * 1 ^ 1 := by rw [one_pow, mul_one]
    have hlast := h.record hn hn64 (hpasses hone) h.pow_pos le_rfl hsplit
    have hproduct : recordsProduct (d.record d.n d.pow).records * 1 ^ 1 = n := hlast.product
    exact answers_emit ⟨by rwa [one_pow, mul_one] at hproduct, hlast.sound⟩
  · next hone =>
    have hproduct := h.product
    rw [not_not.mp hone, one_pow, mul_one] at hproduct
    exact ⟨hproduct, h.sound⟩

theorem factored_factorF (limit budget : Nat) (seed : Word) : Answers (Factored n) (factorF limit budget n seed) := by
  have hstart : Factoring n (.start budget n seed) := .start budget n seed
  rw [factorF_eq]
  split
  · next hone =>
    obtain rfl : n = 1 := hone.resolve_left hn
    exact ⟨rfl, hstart.sound⟩
  · split
    · next hprime =>
      have hpasses : Passes n := by
        rcases hprime with rfl | rfl
        · exact passes_of_prime Nat.prime_two (by decide)
        · exact passes_of_prime Nat.prime_three (by decide)
      obtain ⟨hproduct, hsound⟩ := sound_record (m := 1) hn hn64 hstart.sound hpasses le_rfl
        (by simp [Driver.start, recordsProduct])
      exact answers_emit ⟨by rwa [mul_one] at hproduct, hsound⟩
    · refine ((TrialState.start hn hn64 budget seed).answers_stripStage hn hn64 rfl).bind fun d1 h1 => ?_
      refine (h1.answers_trialStage hn hn64).bind fun d2 h2 => ?_
      have hresidual : Residual d2 := h2.residual hn
      obtain ⟨p, hstate, -⟩ := h2
      refine (hstate.factoring.answers_rhoStage hn hn64 limit _ hresidual).bind fun d3 h3 => ?_
      exact h3.1.answers_finalResidual hn hn64 h3.2

end

/-- The records of every 64-bit operand are sound; 0 has none. -/
theorem sound_of_factorF {limit budget n : Nat} {seed : Word} {d : Driver} (hn64 : n < 2 ^ 64)
    (h : factorF limit budget n seed = .ok d) : ∀ e ∈ d.records, Sound e := by
  by_cases hn : n = 0
  · subst hn
    cases h
    simp
  · exact ((factored_factorF hn hn64 limit budget seed).of_ok h).sound

/-- A record stands for a divisor of the operand. -/
theorem value_dvd_of_factorF {limit budget n : Nat} {seed : Word} {d : Driver} (hn64 : n < 2 ^ 64)
    (h : factorF limit budget n seed = .ok d) {e : FactorRecord} (he : e ∈ d.records) : n ≠ 0 ∧ e.value ∣ n := by
  by_cases hn : n = 0
  · subst hn
    cases h
    simp at he
  · have hproduct := ((factored_factorF hn hn64 limit budget seed).of_ok h).product
    exact ⟨hn, hproduct ▸ List.dvd_prod (List.mem_map_of_mem he)⟩

/-- Settles O38: what is recorded passes the tester, and is prime below 2^32. -/
theorem factorRecordsPrimes : Obligations.FactorRecordsPrimes := by
  intro limit budget n seed d hn64 h e he
  have hpasses := (sound_of_factorF hn64 h e he).passes
  exact ⟨hpasses.tester, hpasses.narrow⟩

/-- Settles O39: a recorded power divides the operand, and its base is at least 2. -/
theorem factorPowersInRange : Obligations.FactorPowersInRange := by
  intro limit budget n seed d hn64 h e he
  have hsound := sound_of_factorF hn64 h e he
  obtain ⟨hn, hdvd⟩ := value_dvd_of_factorF hn64 h he
  exact ⟨hsound.power_pos,
    Nat.le_of_lt_succ (exponent_lt_of_pow_lt hsound.passes.one_lt (lt_two_pow_of_dvd hn hn64 hdvd))⟩

end Sys2Proof.Machine
end

section
/-! PROOFS of the statements about what FACTOR leaves in the registers (44_factorization.md R210, R214, R219, R220): the
product over FBUF, operands of at most 32 bits, and with them the rest of the statements that need to know how FACTOR
ends. -/

namespace Sys2Proof.Machine

/-! ### The product over FBUF (44_factorization.md R220) -/

/-- The sentinel counts as 1, so a list of records may be read past its end. -/
theorem prod_finRange_getD {m : Nat} {l : List FactorRecord} (h : l.length ≤ m) :
    ((List.finRange m).map fun k => (l.getD k.val FactorRecord.sentinel).value).prod = recordsProduct l := by
  induction l generalizing m with
  | nil =>
    have hone : FactorRecord.sentinel.value = 1 := rfl
    simp [hone, recordsProduct]
  | cons e l ih =>
    obtain ⟨m, rfl⟩ : ∃ m', m = m' + 1 := ⟨m - 1, by rw [List.length_cons] at h; omega⟩
    have hrest := ih (m := m) (Nat.le_of_succ_le_succ h)
    rw [List.finRange_succ, List.map_cons, List.prod_cons, List.map_map]
    simp only [Function.comp_def, Fin.val_zero, Fin.val_succ, List.getD_cons_zero, List.getD_cons_succ, hrest,
      recordsProduct, List.map_cons, List.prod_cons]

theorem recordProduct_finishFactor (s : State) {d : Driver} (h : d.records.length ≤ 15) :
    (s.finishFactor (.ok d)).recordProduct d.records.length = recordsProduct d.records := by
  rw [← prod_finRange_getD (m := 16) (by omega), State.recordProduct]
  congr 1
  refine List.map_congr_left fun k _ => ?_
  split
  · next hk =>
    obtain ⟨-, hentry⟩ := finishFactor_ok_record s (List.getElem?_eq_getElem hk)
    rw [hentry, List.getD_eq_getElem _ _ hk]
    rfl
  · next hk =>
    rw [List.getD_eq_default _ _ (not_lt.mp hk)]
    rfl

/-- FACTOR completes without error only on an answer of the driver. -/
theorem answer_of_succeeded {s : State} {ops : Operands} {answer : Except DriverStop Driver} (hrun : Running .factor ops s)
    (h : Succeeded s (s.finishFactor answer)) : ∃ d, answer = .ok d := by
  cases answer with
  | ok d => exact ⟨d, rfl⟩
  | error stop =>
    cases stop with
    | error code seed => exact absurd ((failed_finishFactor s code seed).err.symm.trans h.err) (by decide)
    | spent =>
      have hidle : s.seq = .idle := h.seq
      rw [hrun] at hidle
      cases hidle

/-- Settles O36: RES0 counts the records, and these multiply to the operand. -/
theorem factorProductLaw : Obligations.FactorProductLaw := by
  intro s ops t hrun ha hexec hdone
  rw [exec_factor_of_running hrun] at hexec
  cases hexec
  obtain ⟨d, hanswer⟩ := answer_of_succeeded hrun hdone
  have hn : ops.a.toNat ≠ 0 := (BitVec.toNat_pos_of_ne_zero ha).ne'
  have hroom : d.records.length ≤ 15 := ((callsMade_factorF _ _ _ _).of_ok hanswer).room
  have hres0 : (s.finishFactor (.ok d)).res0.toNat = d.records.length :=
    toNat_ofNat_of_lt (n := d.records.length) (by omega)
  rw [hanswer, hres0, recordProduct_finishFactor s hroom]
  exact ((factored_factorF hn ops.a.isLt _ _ _).of_ok hanswer).product

/-! ### Operands of at most 32 bits (44_factorization.md R214, R219) -/

theorem Answers.and {α : Type} {post post' : α → Prop} {stop : DriverStop → Prop} {r : Except DriverStop α}
    (h : Answers post r) (h' : Meets post' stop r) : Meets (fun a => post a ∧ post' a) stop r := by
  cases r with
  | ok a => exact ⟨h, h'⟩
  | error e => exact h'

/-- The recorded primes are strictly ascending. -/
def Ascending (d : Driver) : Prop := (d.records.map fun e => e.prime.toNat).Pairwise (· < ·)

theorem rhoStage_of_narrow {d : Driver} (h : d.n ≤ Config.word32Max) (limit passes : Nat) :
    rhoStage limit (passes + 1) d = .ok d := by
  rw [rhoStage_succ, if_neg fun hwide => h.not_gt hwide.1]

/-- A last record above all others. -/
theorem Ascending.record {d : Driver} (h : Ascending d) {p : Nat} (hbelow : ∀ e ∈ d.records, e.prime.toNat < p)
    {q : Nat} (hq : p ≤ q) (hlt : q < 2 ^ 64) (e : Nat) : Ascending (d.record q e) := by
  have hprime : (newRecord q e).prime.toNat = q := toNat_ofNat_of_lt hlt
  rw [Ascending, Driver.record, List.map_append, List.pairwise_append]
  refine ⟨h, by simp, fun a ha b hb => ?_⟩
  obtain ⟨r, hr, rfl⟩ := List.mem_map.mp ha
  rw [List.map_singleton, List.mem_singleton, hprime] at hb
  exact hb ▸ (hbelow r hr).trans_le hq

/-- The last residual has no prime factor below the last candidate, and so comes after every record. -/
theorem TrialEnd.ascending_finalResidual {n : Nat} {d : Driver} (h : TrialEnd n d) (hn : n ≠ 0) (hn64 : n < 2 ^ 64) :
    Answers Ascending (finalResidual d) := by
  obtain ⟨p, hstate, -⟩ := h
  rw [finalResidual]
  split
  · next hone =>
    have hpos : 0 < d.n := Nat.pos_of_ne_zero (hstate.factoring.ne_zero hn)
    have hle : p ≤ d.n := (hstate.trialled.rough _ (Nat.minFac_prime hone) d.n.minFac_dvd).trans (Nat.minFac_le hpos)
    have hlt : d.n < 2 ^ 64 := lt_two_pow_of_dvd hn hn64 hstate.factoring.residual_dvd
    exact answers_emit (Ascending.record hstate.ascending hstate.below hle hlt _)
  · exact hstate.ascending

/-- A narrow operand makes no rho call, and the primes recorded ascend. -/
theorem narrow_factorF {n : Nat} (hnarrow : n ≤ Config.word32Max) (limit budget : Nat) (seed : Word) :
    Meets (fun d => Ascending d ∧ SameCalls (.start budget n seed) d) (fun stop => stop = .error .fbufOverflow seed)
      (factorF limit budget n seed) := by
  have hn64 : n < 2 ^ 64 := hnarrow.trans_lt (by decide)
  rw [factorF_eq]
  split
  · exact ⟨.nil, .refl _⟩
  · next hsmall =>
    have hn : n ≠ 0 := fun h => hsmall (.inl h)
    split
    · exact (answers_emit (List.pairwise_singleton _ _)).and (noCalls_emit n 1 (.start budget n seed))
    · refine ((TrialState.start hn hn64 budget seed).answers_stripStage hn hn64 rfl |>.and (noCalls_stripStage _)).bind ?_
      rintro d1 ⟨hstate, hcalls1⟩
      refine ((hstate.answers_trialStage hn hn64).and ((noCalls_trialStage d1).after hcalls1)).bind ?_
      rintro d2 ⟨hend, hcalls2⟩
      have hnarrow2 : d2.n ≤ Config.word32Max := by
        obtain ⟨p, hstate2, -⟩ := hend
        exact (Nat.le_of_dvd (Nat.pos_of_ne_zero hn) hstate2.factoring.residual_dvd).trans hnarrow
      rw [rhoStage_of_narrow hnarrow2]
      exact (hend.ascending_finalResidual hn hn64).and ((noCalls_finalResidual d2).after hcalls2)

/-- FACTOR's driver answers its records on every narrow operand, with SEED as it was. -/
theorem exists_answer_of_narrow {n : Nat} (hnarrow : n ≤ Config.word32Max) (limit budget : Nat) (seed : Word) :
    ∃ d, factorF limit budget n seed = .ok d ∧ d.seed = seed := by
  have hmeets := narrow_factorF hnarrow limit budget seed
  cases hanswer : factorF limit budget n seed with
  | ok d => exact ⟨d, rfl, (hmeets.of_ok hanswer).2.seed⟩
  | error stop =>
    have hoverflow := (neverOverflows_factorF limit budget seed (hnarrow.trans_lt (by decide))).no_overflow seed
    exact absurd (hanswer.trans (congrArg _ (hmeets.of_error hanswer))) hoverflow

/-- Settles O34: without a rho call the records are the trial divisors in turn, and the last residual. -/
theorem narrowFactorRecordsAscend : Obligations.NarrowFactorRecordsAscend := by
  intro limit budget n seed d hnarrow hanswer
  exact ((narrow_factorF hnarrow limit budget seed).of_ok hanswer).1

/-- Settles O33: the driver answers, and its records are sound, below 2^32 so prime, and multiply to the operand. -/
theorem narrowFactorCompletes : Obligations.NarrowFactorCompletes := by
  intro s ops hrun hnarrow
  obtain ⟨d, hanswer, hseed⟩ := exists_answer_of_narrow hnarrow Config.rhoRetryLimit s.rhoBudget s.seed
  have hroom : d.records.length ≤ 15 := ((callsMade_factorF _ _ _ _).of_ok hanswer).room
  obtain ⟨hheldRes0, hheldSeed, hregs, houtside⟩ := finishFactor_ok_frame s d
  refine ⟨_, ⟨d.records.length, by omega⟩, by rw [exec_factor_of_running hrun, hanswer], succeeded_finishFactor s d,
    hheldRes0, finishFactor_ok_sentinel s rfl, fun k hk => ?_, fun k hk => finishFactor_ok_later s hk, fun ha => ?_,
    fun ha => ?_, fun r hr hfbuf => ?_, houtside⟩
  · obtain ⟨hflag, hentry⟩ := finishFactor_ok_record s (List.getElem?_eq_getElem (l := d.records) hk)
    have hmem : d.records[k.val] ∈ d.records := List.getElem_mem hk
    have hsound := sound_of_factorF ops.a.isLt hanswer _ hmem
    obtain ⟨hn, hdvd⟩ := value_dvd_of_factorF ops.a.isLt hanswer hmem
    have hle : d.records[k.val].prime.toNat ≤ ops.a.toNat :=
      (Nat.le_self_pow (Nat.one_le_iff_ne_zero.mp hsound.power_pos) _).trans (Nat.le_of_dvd (Nat.pos_of_ne_zero hn) hdvd)
    rw [hentry]
    exact ⟨hflag, hsound.passes.narrow (hle.trans hnarrow), hsound.power_pos⟩
  · have hn : ops.a.toNat ≠ 0 := (BitVec.toNat_pos_of_ne_zero ha).ne'
    rw [recordProduct_finishFactor s hroom]
    exact ((factored_factorF hn ops.a.isLt _ _ _).of_ok hanswer).product
  · rw [ha] at hanswer
    cases hanswer
    rfl
  · by_cases hr' : r = .seed
    · rw [hr', hheldSeed, hseed]
      rfl
    · refine hregs r ?_ hfbuf
      simp only [List.mem_cons, List.not_mem_nil, or_false, not_or] at hr ⊢
      exact ⟨hr.1, hr', hr.2⟩

/-! ### FBUF (10_state.md R37) -/

/-- An entry of FBUF is legal unless it is specified and neither the sentinel nor a record. -/
theorem FbufLegal.of_fbuf_eq {s t : State} (h : FbufLegal s) (hfbuf : t.fbuf = s.fbuf)
    (hflags : t.unspecified.fbuf = s.unspecified.fbuf) : FbufLegal t := by
  unfold FbufLegal
  rw [hfbuf, hflags]
  exact h

theorem FbufLegal.of_unspecified {t : State} (h : ∀ k : Fin 16, t.unspecified.fbuf[k.val] = true) : FbufLegal t := by
  intro k hspecified
  rw [h k] at hspecified
  cases hspecified

/-- The entries before the sentinel are the driver's records, and those after it are as they were. -/
theorem FbufLegal.finishFactor_ok {s : State} (h : FbufLegal s) {d : Driver} (hsound : ∀ e ∈ d.records, Sound e) :
    FbufLegal (s.finishFactor (.ok d)) := by
  intro k hspecified
  obtain ⟨hentry, hflag⟩ := finishFactor_ok_entry s d k
  rcases lt_trichotomy k.val d.records.length with hbefore | hsentinel | hafter
  · obtain ⟨-, hrecord⟩ := finishFactor_ok_record s (List.getElem?_eq_getElem hbefore)
    have hsoundk := hsound _ (List.getElem_mem hbefore)
    rw [hrecord]
    exact .inr ⟨hsoundk.passes.one_lt, hsoundk.power_pos⟩
  · exact .inl (finishFactor_ok_sentinel s hsentinel).2
  · rw [hflag, setFbuf_entry_unspecified, if_neg (by omega)] at hspecified
    rw [hentry, setFbuf_entry, if_neg (by omega), if_neg (by omega)]
    exact h k hspecified

theorem FbufLegal.command {i : Instr} {s t : State} (h : FbufLegal s) (heffect : CoreEffect s i t) : FbufLegal t := by
  cases heffect with
  | result | zeroModulus | results | seedResult => exact h.of_fbuf_eq rfl rfl
  | factor =>
    cases hanswer : factorF Config.rhoRetryLimit s.rhoBudget s.operands.a.toNat s.seed with
    | ok d => exact h.finishFactor_ok (sound_of_factorF s.operands.a.isLt hanswer)
    | error stop =>
      cases stop with
      | error code seed => exact .of_unspecified fun k => by simp [State.finishFactor]
      | spent => exact h.of_fbuf_eq rfl rfl

theorem fbuf_writeReg (s : State) (r : Reg) (v : Word) :
    (s.writeReg r v).fbuf = s.fbuf ∧ (s.writeReg r v).unspecified.fbuf = s.unspecified.fbuf := by
  cases r with
  | cmd =>
    obtain ⟨n, hn⟩ := accept_eq s v
    rw [State.writeReg, hn]
    exact ⟨rfl, rfl⟩
  | _ => exact ⟨rfl, rfl⟩

/-- Settles O50: of the effects of a step only a completed FACTOR specifies entries, and its records are sound. -/
theorem stepKeepsFbufLegal : Obligations.StepKeepsFbufLegal := by
  intro s t hlegal hstep
  cases stepEffect_of_step hstep with
  | illegal hops => exact hlegal.of_fbuf_eq rfl rfl
  | reset l hnext => exact .of_unspecified fun k => by simp
  | command l hturn hrun heffect =>
    have hturns : FbufLegal { s with turns := l } := hlegal.of_fbuf_eq rfl rfl
    exact hturns.command heffect
  | dropped l line hbusy hnext => exact hlegal.of_fbuf_eq rfl rfl
  | @write l r v hidle hnext hro =>
    obtain ⟨hfbuf, hflags⟩ := fbuf_writeReg { s with turns := l } r v
    exact hlegal.of_fbuf_eq hfbuf hflags
  | quiet n l host htemps => exact hlegal.of_fbuf_eq rfl rfl

/-! ### How a command ends (10_state.md R34; 60_exceptions.md R253, R258, R259) -/

/-- FACTOR's only error on a 64-bit operand is RETRY_LIMIT. -/
theorem factorF_error_code {limit budget n : Nat} {seed seed' : Word} {code : ErrCode} (hn64 : n < 2 ^ 64)
    (h : factorF limit budget n seed = .error (.error code seed')) : code = .retryLimit ∧ limit ≠ 0 := by
  rcases ((callsMade_factorF limit budget n seed).of_error h).1 with rfl | hretry
  · exact absurd h ((neverOverflows_factorF limit budget seed hn64).no_overflow seed')
  · exact hretry

/-- A command that ends with MOD_ZERO had a modulus of 0 (60_exceptions.md R253). -/
theorem CoreEffect.zeroModulus_of_failed {i : Instr} {s t : State} (heffect : CoreEffect s i t)
    (hbusy : s.seq ≠ .idle) (h : Failed .modZero s t) : ZeroModulus i s.operands := by
  have hnot : ∀ {t' : State}, Succeeded s t' → ¬ Failed .modZero s t' := fun hdone hfail =>
    absurd (hdone.err.symm.trans hfail.err) (by decide)
  cases heffect with
  | result hi hmodulus v => exact absurd h (hnot (finishRes0_ok s v).1)
  | zeroModulus hmodulus => exact hmodulus
  | results v0 v1 v2 => exact absurd h (hnot (finishResults_spec s v0 v1 v2).1)
  | seedResult hi hmodulus seed v => exact absurd h (hnot (setSeed_finishRes0_ok s seed v).1)
  | factor =>
    cases hanswer : factorF Config.rhoRetryLimit s.rhoBudget s.operands.a.toNat s.seed with
    | ok d =>
      rw [hanswer] at h
      exact absurd h (hnot (succeeded_finishFactor s d))
    | error stop =>
      rw [hanswer] at h
      cases stop with
      | error code seed =>
        obtain ⟨rfl, -⟩ := factorF_error_code s.operands.a.isLt hanswer
        exact absurd ((failed_finishFactor s .retryLimit seed).errCode.symm.trans h.errCode) (by decide)
      | spent => exact absurd h.seq hbusy

theorem CoreEffect.eq_of_zeroModulus {i : Instr} {s t : State} (heffect : CoreEffect s i t)
    (h : ZeroModulus i s.operands) : t = s.completeError .modZero := by
  cases heffect with
  | result hi hmodulus => exact absurd h hmodulus
  | zeroModulus => rfl
  | seedResult hi hmodulus => exact absurd h hmodulus
  | results | factor => simp [ZeroModulus] at h

/-- Settles O20: the modulus is checked before any result, and no other end of a command has the code. -/
theorem zeroModulusRaisesModZero : Obligations.ZeroModulusRaisesModZero := by
  refine ⟨fun s i ops hrun hmodulus => ?_, fun s t i ops hrun hexec hfail => ?_⟩
  · obtain ⟨t, ht⟩ := exec_next i s
    have hzero : t = s.completeError .modZero :=
      (coreEffect_of_exec ht).eq_of_zeroModulus (by rw [hrun.operands_eq]; exact hmodulus)
    exact ⟨t, ht, hzero ▸ completeError_spec s .modZero⟩
  · have hmodulus := (coreEffect_of_exec hexec).zeroModulus_of_failed (by rw [hrun]; nofun) hfail
    rwa [hrun.operands_eq] at hmodulus

end Sys2Proof.Machine
end

section
/-! PROOFS of the statement about the STATUS words at completion (10_state.md R34; 95_test_vectors.md section 2). A STATUS
word is its fields; a completion fixes all of them but OVERRUN. -/

namespace Sys2Proof.Machine

/-- A STATUS word is its four bits, its code and its reserved bits. -/
theorem status_ext {u w : Word} (hbusy : statusBusy u = statusBusy w) (hdone : statusDone u = statusDone w)
    (herr : statusErr u = statusErr w) (hoverrun : statusOverrun u = statusOverrun w)
    (hcode : statusErrCode u = statusErrCode w)
    (hreserved : u &&& statusReservedMask = w &&& statusReservedMask) : u = w := by
  refine BitVec.eq_of_getLsbD_eq fun j hj => ?_
  have hmask : ∀ k : Fin 64, statusReservedMask.getLsbD k.val = decide (4 ≤ k.val ∧ (k.val < 8 ∨ 16 ≤ k.val)) := by
    decide
  by_cases hres : 4 ≤ j ∧ (j < 8 ∨ 16 ≤ j)
  · have hbit := congrArg (fun v => BitVec.getLsbD v j) hreserved
    simpa only [BitVec.getLsbD_and, hmask ⟨j, hj⟩, hres, and_self, decide_true, Bool.and_true] using hbit
  · by_cases hlow : j < 4
    · interval_cases j
      exacts [hbusy, hdone, herr, hoverrun]
    · have hbit := congrArg (fun v => BitVec.getLsbD v (j - 8)) hcode
      have hbyte : j - 8 < 8 := by omega
      have hsum : 8 + (j - 8) = j := by omega
      simpa only [statusErrCode, BitVec.getLsbD_extractLsb', hbyte, decide_true, Bool.true_and, hsum] using hbit

/-- While a command runs, STATUS is BUSY alone, with OVERRUN when a write was dropped. -/
theorem MachineInv.status_eq_of_busy {s : State} (h : MachineInv s) (hb : s.seq.isBusy = true) :
    s.status = if statusOverrun s.status then 0x9 else 0x1 := by
  obtain ⟨hdone, herr, hcode⟩ := h.running hb
  have hbusy : statusBusy s.status = true := h.busy.trans hb
  have hreserved := h.reserved
  cases hoverrun : statusOverrun s.status with
  | false => exact status_ext hbusy hdone herr hoverrun hcode hreserved
  | true => exact status_ext hbusy hdone herr hoverrun hcode hreserved

theorem MachineInv.toNat_statusSucceeded {s : State} (h : MachineInv s) (hb : s.seq.isBusy = true) :
    (statusSucceeded s.status).toNat = 0x2 + if statusOverrun s.status then 8 else 0 := by
  rw [h.status_eq_of_busy hb]
  cases statusOverrun s.status <;> decide

theorem MachineInv.toNat_statusFailed {s : State} (h : MachineInv s) (hb : s.seq.isBusy = true) (code : ErrCode) :
    (statusFailed code s.status).toNat = 256 * code.number.toNat + 6 + if statusOverrun s.status then 8 else 0 := by
  rw [h.status_eq_of_busy hb]
  cases code <;> cases statusOverrun s.status <;> decide

/-- With no modulus of 0 every command but FACTOR succeeds. -/
theorem CoreEffect.status_succeeded {i : Instr} {s t : State} (heffect : CoreEffect s i t) (hi : i ≠ .factor)
    (hmodulus : ¬ ZeroModulus i s.operands) : t.status = statusSucceeded s.status := by
  cases heffect with
  | result | results | seedResult => rfl
  | zeroModulus h => exact absurd h hmodulus
  | factor => exact absurd rfl hi

theorem status_finishFactor_ok (s : State) (d : Driver) :
    (s.finishFactor (.ok d)).status = statusSucceeded s.status := by
  simp [State.finishFactor]

/-- A completed FACTOR leaves the word of a success or of RETRY_LIMIT. -/
theorem finishFactor_completed {s : State} {limit budget n : Nat} {seed : Word} (hn64 : n < 2 ^ 64)
    (hbusy : s.seq ≠ .idle) (hidle : (s.finishFactor (factorF limit budget n seed)).seq = .idle) :
    (s.finishFactor (factorF limit budget n seed)).status = statusSucceeded s.status ∨
      (s.finishFactor (factorF limit budget n seed)).status = statusFailed .retryLimit s.status := by
  cases hanswer : factorF limit budget n seed with
  | ok d => exact .inl (status_finishFactor_ok s d)
  | error stop =>
    cases stop with
    | error code seed' =>
      obtain ⟨rfl, -⟩ := factorF_error_code hn64 hanswer
      exact .inr (by simp [State.finishFactor])
    | spent =>
      rw [hanswer] at hidle
      exact absurd hidle hbusy

theorem CoreEffect.eq_of_factor {s t : State} (heffect : CoreEffect s .factor t) :
    t = s.finishFactor (factorF Config.rhoRetryLimit s.rhoBudget s.operands.a.toNat s.seed) := by
  cases heffect with
  | result hi => exact absurd rfl hi
  | zeroModulus h => simp [ZeroModulus] at h
  | seedResult hi => exact absurd hi (by decide)
  | factor => rfl

theorem coreEffect_of_running {i : Instr} {ops : Operands} {s t : State} (hrun : Running i ops s)
    (hturn : s.nextTurn.1 = .core) (hstep : step s = .next t) : ∃ l, CoreEffect { s with turns := l } i t := by
  obtain ⟨l, hl⟩ := nextTurn_snd s
  rw [step_of_not_illegal hrun.not_illegal, hturn, hl] at hstep
  have hexec : takeTurn .core { s with turns := l } = exec i { s with turns := l } := coreStep_of_running (ops := ops) hrun
  rw [hexec] at hstep
  exact ⟨l, coreEffect_of_exec hstep⟩

/-- Settles O19: the running STATUS is 0x1 or 0x9, and each completion makes its word of it. -/
theorem statusWordsAtCompletion : Obligations.StatusWordsAtCompletion := by
  intro s t hinv hstep dropped
  refine ⟨fun ops hops => ?_, fun hturn i ops hrun => ?_⟩
  · rw [step_of_illegal hops] at hstep
    cases hstep
    exact hinv.toNat_statusFailed (by rw [hops]; rfl) .illegalCmd
  · have hb : s.seq.isBusy = true := by rw [hrun]; rfl
    obtain ⟨l, heffect⟩ := coreEffect_of_running hrun hturn hstep
    have hops : ({ s with turns := l } : State).operands = ops := Running.operands_eq (i := i) hrun
    refine ⟨fun hmodulus => ?_, fun hmodulus hi => ?_, ?_⟩
    · rw [heffect.eq_of_zeroModulus (hops ▸ hmodulus)]
      exact hinv.toNat_statusFailed hb .modZero
    · rw [heffect.status_succeeded hi (hops ▸ hmodulus)]
      exact hinv.toNat_statusSucceeded hb
    · rintro rfl
      have ht := heffect.eq_of_factor
      rw [hops] at ht
      subst ht
      refine ⟨?_, fun seed => ?_, fun hidle => ?_⟩
      · change (State.finishFactor { s with turns := l } (factorF _ s.rhoBudget ops.a.toNat s.seed)).status.toNat = _
        rcases factorF Config.rhoRetryLimit s.rhoBudget ops.a.toNat s.seed with (⟨code, seed⟩ | _) | d
        · exact hinv.toNat_statusFailed hb code
        · rfl
        · rw [status_finishFactor_ok]
          exact hinv.toNat_statusSucceeded hb
      · exact hinv.toNat_statusFailed hb .retryLimit
      · rcases finishFactor_completed ops.a.isLt (by rw [hrun]; nofun) hidle with hdone | hfail
        · exact .inl (hdone ▸ hinv.toNat_statusSucceeded hb)
        · exact .inr (hfail ▸ hinv.toNat_statusFailed hb .retryLimit)

end Sys2Proof.Machine
end

section
/-! PROOFS of the statements about the rho calls of a whole FACTOR (44_factorization.md R214, R216, R223). On a 64-bit
operand at most two retry loops run: one on the residual of step 4, and one on a part of it; all other steps make no call.
From this come the counts of calls and failures, and a FACTOR that never completes. -/

namespace Sys2Proof.Machine

/-! ### At most one retry loop -/

/-- From `d` on at most one retry loop runs, on a number that meets `target`, and the answer is that loop's. -/
inductive OneLoop (limit : Nat) (target : Nat → Prop) (d : Driver) : Except DriverStop Driver → Prop
  /-- No loop runs. -/
  | none {d' : Driver} (h : SameCalls d d') : OneLoop limit target d (.ok d')
  /-- A loop succeeds after `k` failed calls. -/
  | found {d' : Driver} (k : Nat) (hk : k < d.budget) (hlimit : limit ≠ 0 → 0 < k → d.fails + k < limit)
      (h : SameCalls (d.afterCalls (k + 1) k d.budget) d') : OneLoop limit target d (.ok d')
  /-- No room for a record. -/
  | overflow (seed : Word) : OneLoop limit target d (.error (.error .fbufOverflow seed))
  /-- A loop reaches the limit at its call `k`. -/
  | limitReached {m : Nat} (hm : target m) (k : Nat) (hk : k < d.budget) (hfails : ∀ j, j ≤ k → RhoFails m d.seed j)
      (hlimit : limit ≠ 0) (hreached : limit ≤ d.fails + k + 1) (hbelow : 0 < k → d.fails + k < limit) :
      OneLoop limit target d (.error (.error .retryLimit (xorshiftF^[k + 1] d.seed)))
  /-- A loop fails on the whole budget, below the limit. -/
  | spent (hbelow : limit = 0 ∨ d.budget = 0 ∨ d.fails + d.budget < limit) : OneLoop limit target d (.error .spent)

section
variable {limit : Nat} {target : Nat → Prop} {d : Driver} {r : Except DriverStop Driver}

theorem OneLoop.of_noCalls (h : NoCalls d r) : OneLoop limit target d r := by
  cases r with
  | ok d' => exact .none h
  | error stop =>
    rw [show stop = .error .fbufOverflow d.seed from h]
    exact .overflow d.seed

theorem OneLoop.imp {target' : Nat → Prop} (h : OneLoop limit target d r) (himp : ∀ m, target m → target' m) :
    OneLoop limit target' d r := by
  cases h with
  | none h => exact .none h
  | found k hk hlimit h => exact .found k hk hlimit h
  | overflow seed => exact .overflow seed
  | limitReached hm k hk hfails hlimit hreached hbelow =>
    exact .limitReached (himp _ hm) k hk hfails hlimit hreached hbelow
  | spent hbelow => exact .spent hbelow

/-- Only the counters of the driver matter. -/
theorem OneLoop.after {d0 : Driver} (hsame : SameCalls d0 d) (h : OneLoop limit target d r) :
    OneLoop limit target d0 r := by
  obtain ⟨hseed, hfails, hbudget, hroom⟩ := hsame
  cases h with
  | none h => exact .none (SameCalls.trans ⟨hseed, hfails, hbudget, hroom⟩ h)
  | found k hk hlimit h =>
    have hcalls : SameCalls (d0.afterCalls (k + 1) k d0.budget) (d.afterCalls (k + 1) k d.budget) :=
      ⟨by simp only [Driver.afterCalls, hseed], by simp only [Driver.afterCalls, hfails],
        by simp only [Driver.afterCalls, hbudget], hroom⟩
    exact .found k (hbudget ▸ hk) (hfails ▸ hlimit) (hcalls.trans h)
  | overflow seed => exact .overflow seed
  | limitReached hm k hk hcalls hlimit hreached hbelow =>
    rw [hseed]
    exact .limitReached hm k (hbudget ▸ hk) (hseed ▸ hcalls) hlimit (hfails ▸ hreached) (hfails ▸ hbelow)
  | spent hbelow => exact .spent (hfails ▸ hbudget ▸ hbelow)

/-- Steps without a call behind a loop. -/
theorem OneLoop.bind_noCalls {post : Driver → Prop} {f : Driver → Except DriverStop Driver}
    (h : OneLoop limit target d r) (hpost : Answers post r) (hf : ∀ d', post d' → NoCalls d' (f d')) :
    OneLoop limit target d (r.bind f) := by
  cases h with
  | @none d' h => exact .of_noCalls ((hf d' hpost).after h)
  | @found d' k hk hlimit h =>
    have hcalls : NoCalls d' (f d') := hf d' hpost
    change OneLoop limit target d (f d')
    cases hanswer : f d' with
    | ok d'' =>
      rw [hanswer] at hcalls
      exact .found k hk hlimit (h.trans hcalls)
    | error stop =>
      rw [hanswer] at hcalls
      rw [show stop = .error .fbufOverflow d'.seed from hcalls]
      exact .overflow _
  | overflow seed => exact .overflow seed
  | limitReached hm k hk hfails hlimit hreached hbelow => exact .limitReached hm k hk hfails hlimit hreached hbelow
  | spent hbelow => exact .spent hbelow

theorem NoCalls.bind_of {post : Driver → Prop} {f : Driver → Except DriverStop Driver} (h : NoCalls d r)
    (hpost : Answers post r) (hf : ∀ d', post d' → NoCalls d' (f d')) : NoCalls d (r.bind f) := by
  cases r with
  | ok d' => exact (hf d' hpost).after h
  | error stop => exact h

/-- A loop behind steps without a call. -/
theorem NoCalls.bind_oneLoop {post : Driver → Prop} {f : Driver → Except DriverStop Driver} (h : NoCalls d r)
    (hpost : Answers post r) (hf : ∀ d', SameCalls d d' → post d' → OneLoop limit target d' (f d')) :
    OneLoop limit target d (r.bind f) := by
  cases r with
  | ok d' => exact (hf d' h hpost).after h
  | error stop => exact .of_noCalls (r := .error stop) h

/-- A retry loop with steps without a call behind it. -/
theorem oneLoop_rhoRetry {m : Nat} {f : Nat × Driver → Except DriverStop Driver} (hm : target m)
    (hf : ∀ r, SplitsOff m d r → r.2.budget < d.budget → NoCalls r.2 (f r)) :
    OneLoop limit target d ((rhoRetry limit m d.budget d).bind f) := by
  have houtcome := retryOutcome limit m d.budget d
  generalize rhoRetry limit m d.budget d = answer at houtcome ⊢
  cases houtcome with
  | found k hk hfails hfound hlimit =>
    obtain ⟨hone, hself⟩ := not_or.mp hfound
    have hloop : OneLoop limit target d (.ok (d.afterCalls (k + 1) k d.budget)) := .found k hk hlimit (.refl _)
    refine hloop.bind_noCalls (post := fun d' => d' = d.afterCalls (k + 1) k d.budget)
      (f := fun d' => f (rhoResult m d.seed k, d')) rfl ?_
    rintro d' rfl
    exact hf _ ⟨rhoF_fst_dvd _ _, hone, hself, _, _, _, rfl⟩ (by simp only [Driver.afterCalls]; omega)
  | limitReached k hk hfails hlimit hreached hbelow => exact .limitReached hm k hk hfails hlimit hreached hbelow
  | spent hfails hbelow => exact .spent hbelow

end

/-! ### The residual after CLASSIFY -/

theorem answers_classifyNarrow_n (x : Nat) (d : Driver) :
    Answers (fun d' => d'.n = d.n ∨ d'.n = d.n / x) (classifyNarrow x d) := by
  rw [classifyNarrow_eq]
  split
  · refine (answers_emit (post := fun d' => d'.n = d.n) rfl).bind fun d' hd' => ?_
    exact .inr (by rw [← hd']; rfl)
  · exact answers_emit (.inl rfl)

theorem answers_classifyWide_n (limit x : Nat) (d : Driver) :
    Answers (fun d' => d'.n = d.n) (classifyWide limit x d) := by
  rw [classifyWide_eq]
  split
  · exact answers_emit rfl
  · split
    · exact answers_emit rfl
    · refine (answers_rhoRetry limit x d.budget d).bind ?_
      rintro ⟨y, d'⟩ ⟨-, -, -, k, failed, budget, hd'⟩
      simp only at hd' ⊢
      subst hd'
      refine (answers_emit (post := fun d' => d'.n = d.n) (d := d.afterCalls k failed budget) rfl).bind fun d' hd' => ?_
      exact answers_emit hd'

/-- CLASSIFY_WIDE runs a loop on `x` at most. -/
theorem oneLoop_classifyWide (limit x : Nat) (d : Driver) : OneLoop limit (· = x) d (classifyWide limit x d) := by
  rw [classifyWide_eq]
  split
  · exact .of_noCalls (noCalls_emit _ _ d)
  · split
    · exact .of_noCalls (noCalls_emit _ _ d)
    · exact oneLoop_rhoRetry rfl fun r _ _ => (noCalls_emit _ _ r.2).bind fun d' => noCalls_emit _ _ d'

theorem noCalls_rhoStage_of_narrow {d : Driver} (h : d.n ≤ Config.word32Max) (limit : Nat) {passes : Nat}
    (hpasses : 0 < passes) : NoCalls d (rhoStage limit passes d) := by
  obtain ⟨p, rfl⟩ : ∃ p, passes = p + 1 := ⟨passes - 1, by omega⟩
  rw [rhoStage_of_narrow h]
  exact SameCalls.refl d

theorem classify_of_wide {x : Nat} (h : Config.word32Max < x) (limit : Nat) (d : Driver) :
    classify limit x d = classifyWide limit x d := if_pos h

theorem classify_of_narrow {x : Nat} (h : x ≤ Config.word32Max) (limit : Nat) (d : Driver) :
    classify limit x d = classifyNarrow x d := if_neg h.not_gt

/-! ### At most two retry loops (44_factorization.md R214) -/

/-- From `d` on a loop on `n0` runs at most, and, once it has split `n0`, one on one of the two parts at most. -/
inductive TwoLoops (limit n0 : Nat) (d : Driver) (r : Except DriverStop Driver) : Prop
  /-- No loop on `n0` succeeds. -/
  | one (h : OneLoop limit (fun m => m = n0 ∧ Config.word32Max < n0) d r)
  /-- Call `k` splits `n0`. -/
  | two (k : Nat) (hwide : Config.word32Max < n0) (hk : k < d.budget) (hfails : ∀ j, j < k → RhoFails n0 d.seed j)
      (hfound : ¬ RhoFails n0 d.seed k) (hlimit : limit ≠ 0 → 0 < k → d.fails + k < limit)
      (h : OneLoop limit (fun m => m = rhoResult n0 d.seed k ∨ m = n0 / rhoResult n0 d.seed k)
        (d.afterCalls (k + 1) k d.budget) r)

section
variable {n : Nat} {d : Driver} (hn : n ≠ 0) (hn64 : n < 2 ^ 64)
include hn

/-- Each part is smaller than the whole by 16 bits at least. -/
theorem SplitOff.parts_lt {x b : Nat} (h : SplitOff n x d) (hlt : x * d.n < 2 ^ 16 * 2 ^ b) :
    x < 2 ^ b ∧ d.n < 2 ^ b := by
  have hne : x * d.n ≠ 0 := h.ne_zero hn
  have hx : 2 ^ 16 ≤ x := (h.rough.of_dvd (Nat.dvd_mul_right x d.n)).le h.ne_one (left_ne_zero_of_mul hne)
  have hleft : 2 ^ 16 ≤ d.n := (h.rough.of_dvd (Nat.dvd_mul_left d.n x)).le h.left_ne_one (right_ne_zero_of_mul hne)
  constructor
  · by_contra hlarge
    have hproduct : 2 ^ b * 2 ^ 16 ≤ x * d.n := Nat.mul_le_mul (not_lt.mp hlarge) hleft
    omega
  · by_contra hlarge
    have hproduct : 2 ^ 16 * 2 ^ b ≤ x * d.n := Nat.mul_le_mul hx (not_lt.mp hlarge)
    omega

/-- Splitting two narrow parts makes no call. -/
theorem SplitOff.noCalls {x passes : Nat} (h : SplitOff n x d) (hsmall : x * d.n < 2 ^ 48) (limit : Nat)
    (hpasses : 0 < passes) : NoCalls d ((classify limit x d).bind (rhoStage limit passes)) := by
  obtain ⟨hx, hleft⟩ := h.parts_lt hn (b := 32) (by omega)
  rw [classify_of_narrow (Nat.le_of_lt_succ hx)]
  refine (noCalls_classifyNarrow x d).bind_of (answers_classifyNarrow_n x d) fun d' hd' => ?_
  have hle : d'.n ≤ d.n := by
    rcases hd' with hsame | hdiv
    · exact hsame.le
    · exact hdiv.trans_le (Nat.div_le_self _ _)
  exact noCalls_rhoStage_of_narrow (Nat.le_of_lt_succ (hle.trans_lt hleft)) limit hpasses

include hn64

/-- A residual below 2^48 is split once at most: its parts are narrow. -/
theorem Working.oneLoop_rhoStage {passes : Nat} (h : Working n d) (hsmall : d.n < 2 ^ 48) (limit : Nat)
    (hpasses : d.budget < passes) : OneLoop limit (· = d.n) d (rhoStage limit passes d) := by
  obtain ⟨p, rfl⟩ : ∃ p, passes = p + 1 := ⟨passes - 1, by omega⟩
  rw [rhoStage_succ]
  split
  · next hwide =>
    refine oneLoop_rhoRetry rfl fun r hr hbudget => ?_
    have hsplit := h.factoring.splitOff hn hn64 (h.residual hn) hwide.1 hr
    refine (hsplit.noCalls hn ?_ limit (by omega)).after (.withResidual r.2 _ _)
    obtain ⟨k, failed, budget, hd'⟩ := hr.calls
    have hresidual : r.2.n = d.n := by rw [hd']; rfl
    change r.1 * (r.2.n / r.1) < 2 ^ 48
    rwa [hresidual, Nat.mul_div_cancel' hr.dvd]
  · exact .of_noCalls (SameCalls.refl d)

/-- Once a wide residual is split, one loop more runs at most, on one of the two parts. -/
theorem SplitOff.oneLoop {x passes : Nat} (h : SplitOff n x d) (limit : Nat) (hpasses : d.budget < passes)
    (hpos : 0 < passes) :
    OneLoop limit (fun m => m = x ∨ m = d.n) d ((classify limit x d).bind (rhoStage limit passes)) := by
  have hlt : x * d.n < 2 ^ 64 := h.lt hn hn64
  obtain ⟨hx48, hleft48⟩ := h.parts_lt hn (b := 48) (by omega)
  by_cases hwide : Config.word32Max < x
  · have hleft : d.n ≤ Config.word32Max := by
      by_contra hlarge
      have hproduct : 2 ^ 32 * 2 ^ 32 ≤ x * d.n := Nat.mul_le_mul hwide (not_le.mp hlarge)
      omega
    rw [classify_of_wide hwide]
    refine ((oneLoop_classifyWide limit x d).imp fun m => .inl).bind_noCalls (answers_classifyWide_n limit x d) ?_
    intro d' hd'
    exact noCalls_rhoStage_of_narrow (hd'.trans_le hleft) limit hpos
  · have hworking := h.answers_classifyNarrow hn hn64 (not_lt.mp hwide)
    rw [classify_of_narrow (not_lt.mp hwide)]
    refine (noCalls_classifyNarrow x d).bind_oneLoop
      (hworking.and (answers_classifyNarrow_n x d)) fun d' hsame hd' => ?_
    obtain ⟨hd', hresidual⟩ := hd'
    rcases hresidual with hsame' | hdiv
    · refine (hd'.oneLoop_rhoStage hn hn64 (hsame' ▸ hleft48) limit (hsame.budget ▸ hpasses)).imp fun m hm => .inr ?_
      rw [hm, hsame']
    · refine .of_noCalls (noCalls_rhoStage_of_narrow ?_ limit hpos)
      have hxlarge : 2 ^ 16 ≤ x := (h.rough.of_dvd (Nat.dvd_mul_right x d.n)).le h.ne_one
        (left_ne_zero_of_mul (h.ne_zero hn))
      have hquot : d.n / x < 2 ^ 32 := (Nat.div_lt_iff_lt_mul (by omega)).mpr (by omega)
      rw [hdiv]
      exact Nat.le_of_lt_succ hquot

theorem Factoring.twoLoops_rhoStage {passes : Nat} (h : Factoring n d) (hresidual : Residual d) (limit : Nat)
    (hpasses : d.budget < passes) : TwoLoops limit d.n d (rhoStage limit passes d) := by
  obtain ⟨p, rfl⟩ : ∃ p, passes = p + 1 := ⟨passes - 1, by omega⟩
  rw [rhoStage_succ]
  split
  · next hwide =>
    have houtcome := retryOutcome limit d.n d.budget d
    generalize rhoRetry limit d.n d.budget d = answer at houtcome ⊢
    cases houtcome with
    | found k hk hfails hfound hlimit =>
      obtain ⟨hone, hself⟩ := not_or.mp hfound
      have hr : SplitsOff d.n d (rhoResult d.n d.seed k, d.afterCalls (k + 1) k d.budget) :=
        ⟨rhoF_fst_dvd _ _, hone, hself, _, _, _, rfl⟩
      have hsplit := h.splitOff hn hn64 hresidual hwide.1 hr
      refine .two k hwide.1 hk hfails hfound hlimit ?_
      refine (hsplit.oneLoop hn hn64 limit ?_ (by omega)).after (.withResidual (d.afterCalls (k + 1) k d.budget) _ _)
      simp only [Driver.withResidual, Driver.afterCalls]
      omega
    | limitReached k hk hfails hlimit hreached hbelow =>
      exact .one (.limitReached ⟨rfl, hwide.1⟩ k hk hfails hlimit hreached hbelow)
    | spent hfails hbelow => exact .one (.spent hbelow)
  · exact .one (.of_noCalls (SameCalls.refl d))

end

/-- Steps without a call around the loops. -/
theorem TwoLoops.after {limit n0 : Nat} {d0 d : Driver} {r : Except DriverStop Driver} (h : TwoLoops limit n0 d r)
    (hsame : SameCalls d0 d) : TwoLoops limit n0 d0 r := by
  cases h with
  | one h => exact .one (h.after hsame)
  | two k hwide hk hfails hfound hlimit h =>
    obtain ⟨hseed, hfailed, hbudget, hroom⟩ := hsame
    have hcalls : SameCalls (d0.afterCalls (k + 1) k d0.budget) (d.afterCalls (k + 1) k d.budget) :=
      ⟨by simp only [Driver.afterCalls, hseed], by simp only [Driver.afterCalls, hfailed],
        by simp only [Driver.afterCalls, hbudget], hroom⟩
    exact .two k hwide (hbudget ▸ hk) (hseed ▸ hfails) (hseed ▸ hfound) (hfailed ▸ hlimit) (hseed ▸ h.after hcalls)

theorem TwoLoops.bind_noCalls {limit n0 : Nat} {d : Driver} {r : Except DriverStop Driver}
    {f : Driver → Except DriverStop Driver} (h : TwoLoops limit n0 d r) (hf : ∀ d', NoCalls d' (f d')) :
    TwoLoops limit n0 d (r.bind f) := by
  have hpost : Answers (fun _ => True) r := by cases r <;> trivial
  cases h with
  | one h => exact .one (h.bind_noCalls hpost fun d' _ => hf d')
  | two k hwide hk hfails hfound hlimit h =>
    exact .two k hwide hk hfails hfound hlimit (h.bind_noCalls hpost fun d' _ => hf d')

/-- The rho calls of a whole FACTOR. -/
theorem twoLoops_factorF {n : Nat} (hn64 : n < 2 ^ 64) (limit budget : Nat) (seed : Word) :
    ∃ n0, n0 ∣ n ∧ TwoLoops limit n0 (.start budget n seed) (factorF limit budget n seed) := by
  have hnone : ∀ {r}, NoCalls (.start budget n seed) r →
      ∃ n0, n0 ∣ n ∧ TwoLoops limit n0 (.start budget n seed) r := fun h => ⟨n, dvd_rfl, .one (.of_noCalls h)⟩
  rw [factorF_eq]
  split
  · exact hnone (.refl _)
  · next hsmall =>
    have hn : n ≠ 0 := fun h => hsmall (.inl h)
    split
    · exact hnone (noCalls_emit n 1 _)
    · have hstrip := ((TrialState.start hn hn64 budget seed).answers_stripStage hn hn64 rfl).and (noCalls_stripStage _)
      rw [factorSteps]
      generalize stripStage (.start budget n seed) = r1 at hstrip ⊢
      cases r1 with
      | error stop => exact hnone hstrip
      | ok d1 =>
        obtain ⟨hstate, hcalls1⟩ := hstrip
        have htrial := (hstate.answers_trialStage hn hn64).and ((noCalls_trialStage d1).after hcalls1)
        change ∃ n0, n0 ∣ n ∧ TwoLoops limit n0 _ ((trialStage d1).bind _)
        generalize trialStage d1 = r2 at htrial ⊢
        cases r2 with
        | error stop => exact hnone htrial
        | ok d2 =>
          obtain ⟨hend, hcalls2⟩ := htrial
          have hresidual : Residual d2 := hend.residual hn
          obtain ⟨p, hstate2, -⟩ := hend
          have hrho := hstate2.factoring.twoLoops_rhoStage hn hn64 hresidual limit (Nat.lt_succ_self d2.budget)
          exact ⟨d2.n, hstate2.factoring.residual_dvd, (hrho.bind_noCalls noCalls_finalResidual).after hcalls2⟩

/-! ### Counting the calls (44_factorization.md R210, R216; 60_exceptions.md R255) -/

theorem iterate_afterCalls (a b : Nat) (seed : Word) : xorshiftF^[b] (xorshiftF^[a] seed) = xorshiftF^[a + b] seed := by
  rw [Nat.add_comm, Function.iterate_add_apply]

theorem rhoFails_afterCalls {m a j : Nat} {seed : Word} :
    RhoFails m (xorshiftF^[a] seed) j ↔ RhoFails m seed (a + j) := by
  rw [RhoFails, RhoFails, rhoResult, rhoResult, iterate_afterCalls]

/-- SEED, the calls and the failures of a FACTOR that succeeds. -/
structure CallCounts (limit budget : Nat) (seed : Word) (d : Driver) : Prop where
  le : d.budget ≤ budget
  seed_eq : d.seed = xorshiftF^[budget - d.budget] seed
  fails_le : d.fails ≤ budget - d.budget
  le_fails : budget - d.budget ≤ d.fails + 2
  below : limit ≠ 0 → d.fails < limit

theorem callCounts_of {limit budget calls : Nat} {seed : Word} {d : Driver} (hbudget : d.budget = budget - calls)
    (hseed : d.seed = xorshiftF^[calls] seed) (hle : calls ≤ budget) (hfails : d.fails ≤ calls)
    (hcalls : calls ≤ d.fails + 2) (hbelow : limit ≠ 0 → d.fails < limit) : CallCounts limit budget seed d := by
  have hmade : budget - d.budget = calls := by omega
  exact ⟨by omega, by rw [hmade, hseed], by omega, by omega, hbelow⟩

/-- The counters after at most one loop that does not stop. -/
theorem OneLoop.counters {limit : Nat} {target : Nat → Prop} {d d' : Driver} (h : OneLoop limit target d (.ok d')) :
    ∃ calls failed, d'.budget = d.budget - calls ∧ d'.seed = xorshiftF^[calls] d.seed ∧ d'.fails = d.fails + failed ∧
      calls ≤ d.budget ∧ failed ≤ calls ∧ calls ≤ failed + 1 ∧
      (limit ≠ 0 → d.fails < limit → d'.fails < limit) := by
  cases h with
  | none h =>
    obtain ⟨hseed, hfails, hbudget, -⟩ := h
    exact ⟨0, 0, hbudget, hseed, hfails, by omega, by omega, by omega, fun _ => by omega⟩
  | found k hk hlimit h =>
    obtain ⟨hseed, hfails, hbudget, -⟩ := h
    simp only [Driver.afterCalls] at hseed hfails hbudget
    refine ⟨k + 1, k, hbudget, hseed, hfails, by omega, by omega, by omega, fun hl hbelow => ?_⟩
    have hlast : 0 < k → d.fails + k < limit := hlimit hl
    omega

theorem callCounts_of_ok {limit budget n n0 : Nat} {seed : Word} {d : Driver}
    (h : TwoLoops limit n0 (.start budget n seed) (.ok d)) : CallCounts limit budget seed d := by
  cases h with
  | one h =>
    obtain ⟨calls, failed, hbudget, hseed, hfails, hle, hfailed, hcalls, hbelow⟩ := h.counters
    simp only [Driver.start] at hbudget hseed hfails hle hbelow
    exact callCounts_of hbudget hseed hle (by omega) (by omega) fun hl => hbelow hl (by omega)
  | two k hwide hk hfailsk hfound hlimit h =>
    obtain ⟨calls, failed, hbudget, hseed, hfails, hle, hfailed, hcalls, hbelow⟩ := h.counters
    simp only [Driver.afterCalls, Driver.start, iterate_afterCalls] at hbudget hseed hfails hle hbelow hk hlimit
    refine callCounts_of (by omega) hseed (by omega) (by omega) (by omega) fun hl => hbelow hl ?_
    have hfirst : 0 < k → 0 + k < limit := hlimit hl
    omega

/-- A FACTOR that stops on the limit has failed that many times, on the residual of step 4 or together with a part of
it. -/
theorem failures_of_error {limit budget n n0 : Nat} {seed seed' : Word}
    (h : TwoLoops limit n0 (.start budget n seed) (.error (.error .retryLimit seed'))) :
    limit ≠ 0 ∧ Config.word32Max < n0 ∧
      ((limit ≤ budget ∧ seed' = xorshiftF^[limit] seed ∧ ∀ j, j < limit → RhoFails n0 seed j) ∨
       (limit + 1 ≤ budget ∧ seed' = xorshiftF^[limit + 1] seed ∧
        ∃ j0 m, j0 < limit ∧ (∀ j, j < j0 → RhoFails n0 seed j) ∧ ¬ RhoFails n0 seed j0 ∧
          (m = rhoResult n0 seed j0 ∨ m = n0 / rhoResult n0 seed j0) ∧
          ∀ j, j0 < j → j ≤ limit → RhoFails m seed j)) := by
  cases h with
  | one h =>
    cases h with
    | limitReached hm k hk hfails hlimit hreached hbelow =>
      obtain ⟨rfl, hwide⟩ := hm
      simp only [Driver.start] at hk hfails hreached hbelow ⊢
      obtain rfl : limit = k + 1 := by omega
      exact ⟨hlimit, hwide, .inl ⟨hk, rfl, fun j hj => hfails j (Nat.le_of_lt_succ hj)⟩⟩
  | two k hwide hk hfailsk hfound hlimitk h =>
    cases h with
    | @limitReached m hm k' hk' hfails hlimit hreached hbelow =>
      simp only [Driver.afterCalls, Driver.start, iterate_afterCalls, rhoFails_afterCalls] at *
      have hfirst : 0 < k → 0 + k < limit := hlimitk hlimit
      obtain rfl : limit = k + k' + 1 := by omega
      have hcalls : k + 1 + (k' + 1) = k + k' + 1 + 1 := by omega
      refine ⟨hlimit, hwide, .inr ⟨by omega, by rw [hcalls], k, m, by omega, hfailsk, hfound, hm, fun j hj hle => ?_⟩⟩
      obtain ⟨i, rfl⟩ := Nat.exists_eq_add_of_le (Nat.succ_le_of_lt hj)
      exact hfails i (by omega)

/-- With a limit, and a budget for one call more, a FACTOR does not spend its budget. -/
theorem not_spent_of_limit {limit budget n n0 : Nat} {seed : Word} (hpos : 0 < limit) (hbudget : limit + 1 ≤ budget) :
    ¬ TwoLoops limit n0 (.start budget n seed) (.error .spent) := by
  intro h
  cases h with
  | one h =>
    cases h with
    | spent hbelow =>
      simp only [Driver.start] at hbelow
      omega
  | two k hwide hk hfails hfound hlimit h =>
    cases h with
    | spent hbelow =>
      simp only [Driver.afterCalls, Driver.start] at hbelow hk hlimit
      have hfirst : 0 < k → 0 + k < limit := hlimit (by omega)
      omega

/-- Settles O59: at most two loops run, and each outcome of theirs gives its count. -/
theorem factorCountsItsRhoCalls : Obligations.FactorCountsItsRhoCalls := by
  intro limit budget n seed hn64 result failed
  obtain ⟨n0, hdvd, hloops⟩ := twoLoops_factorF hn64 limit budget seed
  refine ⟨fun d hd => ?_, fun code seed' herror => ?_, fun hpos hbudget hspent => ?_⟩
  · rw [hd] at hloops
    obtain ⟨hle, hseed, hfails, hcalls, hbelow⟩ := callCounts_of_ok hloops
    exact ⟨hle, hseed, hfails, hcalls, hbelow⟩
  · obtain ⟨rfl, -⟩ := factorF_error_code hn64 herror
    rw [herror] at hloops
    obtain ⟨hlimit, hwide, hcases⟩ := failures_of_error hloops
    exact ⟨rfl, hlimit, n0, hdvd, hwide, hcases⟩
  · rw [hspent] at hloops
    exact not_spent_of_limit hpos hbudget hloops

/-! ### A FACTOR that never completes (44_factorization.md R223) -/

/-- RHO_F's loop on the library's arithmetic, for the evaluation of one closed call. -/
def rhoLoopDirect (n : Nat) : Nat → Nat → Nat → Nat → Nat → Nat
  | 0, _, _, _, _ => n
  | left + 1, y, x, i, j =>
    let x' := if i = j then y else x
    let j' := if i = j then 2 * j else j
    let y' := (y * y + 1) % n
    let d := Nat.gcd (if y' ≥ x' then y' - x' else x' - y') n
    if d ≠ 1 then d else rhoLoopDirect n left y' x' (i + 1) j'

theorem rhoLoop_eq_direct {n : Nat} (hn : 0 < n) (hn64 : n ≤ 2 ^ 64) {left y x i j : Nat} (hy : y < n) :
    rhoLoop n left y x i j = rhoLoopDirect n left y x i j := by
  have hmap : ∀ y, y < n → rhoMap y n = (y * y + 1) % n := fun y hy => by
    rw [rhoMap, mulmodF_eq (hy.trans_le hn64) hn, Nat.mod_add_mod]
  induction left generalizing y x i j with
  | zero => rfl
  | succ left ih => simp only [rhoLoop, rhoLoopDirect, hmap y hy, gcdF_eq_gcd, ih (Nat.mod_lt _ hn)]

/-- Trial division passes over an operand without a prime factor below its bound. -/
theorem trialLoop_of_rough {passes p bound : Nat} {d : Driver} (hp : 1 < p)
    (hrough : ∀ q, q.Prime → q ∣ d.n → bound ≤ q) : trialLoop passes p bound d = .ok d := by
  induction passes generalizing p with
  | zero => rfl
  | succ passes ih =>
    rw [trialLoop_succ]
    split
    · next hlt =>
      have hrest : d.n % p ≠ 0 := by
        intro hmod
        have hle : bound ≤ p.minFac := hrough _ (Nat.minFac_prime hp.ne')
          (p.minFac_dvd.trans (Nat.dvd_of_mod_eq_zero hmod))
        exact hlt.not_ge (hle.trans (Nat.minFac_le (by omega)))
      rw [if_neg hrest]
      exact ih (by omega)
    · rfl

/-- The operand of 44_factorization.md R223 (95_test_vectors.md V9), the product of two primes above TRIAL_CAP. -/
def endlessOperand : Nat := 4347151273

theorem le_of_prime_dvd_endlessOperand {q : Nat} (hq : q.Prime) (hdvd : q ∣ endlessOperand) : 65522 ≤ q := by
  have hfirst : Nat.Prime 65837 := by norm_num
  have hsecond : Nat.Prime 66029 := by norm_num
  have hproduct : endlessOperand = 65837 * 66029 := rfl
  rw [hproduct, Nat.Prime.dvd_mul hq, Nat.prime_dvd_prime_iff_eq hq hfirst, Nat.prime_dvd_prime_iff_eq hq hsecond] at hdvd
  omega

theorem not_isSquare_endlessOperand : ¬ IsSquare endlessOperand := by
  rintro ⟨r, hr⟩
  have hlow : 65932 < r := by
    by_contra hle
    have hproduct : r * r ≤ 65932 * 65932 := Nat.mul_le_mul (not_lt.mp hle) (not_lt.mp hle)
    simp only [endlessOperand] at hr
    omega
  have hproduct : 65933 * 65933 ≤ r * r := Nat.mul_le_mul hlow hlow
  simp only [endlessOperand] at hr
  omega

theorem stripStage_endlessOperand (budget : Nat) (seed : Word) :
    stripStage (.start budget endlessOperand seed) = .ok (.start budget endlessOperand seed) := by
  have hodd : divideOut 2 64 endlessOperand 0 = (endlessOperand, 0) := by decide
  have hstart : (Driver.start budget endlessOperand seed).n = endlessOperand := rfl
  rw [stripStage_eq, hstart, hodd]
  rfl

theorem trialStage_endlessOperand (budget : Nat) (seed : Word) :
    trialStage (.start budget endlessOperand seed) = .ok (.start budget endlessOperand seed) := by
  have hreduced : sqpowF endlessOperand 1 = { n := endlessOperand, pow := 1, bound := 65522 } := by
    rw [sqpowF, sqpowLoop_of_reduced (.inr not_isSquare_endlessOperand)]
    rfl
  have hstart : (Driver.start budget endlessOperand seed).n = endlessOperand := rfl
  have hpow : (Driver.start budget endlessOperand seed).pow = 1 := rfl
  rw [trialStage_eq, hstart, hpow, hreduced, if_pos (by decide)]
  exact trialLoop_of_rough (by decide) fun q => le_of_prime_dvd_endlessOperand

/-- 65837 and 66029 are its prime factors, and the base 2 finds that it is no prime. -/
theorem isprimeF_endlessOperand : isprimeF endlessOperand = false := by
  decide +kernel

/-- On this operand the driver stops where its first retry loop stops. -/
theorem factorF_endlessOperand {limit budget : Nat} {seed : Word} {stop : DriverStop}
    (h : rhoRetry limit endlessOperand budget (.start budget endlessOperand seed) = .error stop) :
    factorF limit budget endlessOperand seed = .error stop := by
  have hwide : (Driver.start budget endlessOperand seed).n > Config.word32Max ∧
      isprimeF (Driver.start budget endlessOperand seed).n = false := by
    constructor
    · change endlessOperand > Config.word32Max
      decide
    · exact isprimeF_endlessOperand
  rw [factorF_eq, if_neg (by decide), if_neg (by decide), factorSteps, stripStage_endlessOperand]
  change (trialStage _).bind _ = _
  rw [trialStage_endlessOperand]
  change (rhoStage limit (budget + 1) _).bind _ = _
  rw [rhoStage_succ, if_pos hwide]
  change ((rhoRetry limit endlessOperand budget _).bind _).bind _ = _
  rw [h]
  rfl

/-- 95_test_vectors.md V9: from SEED 0 the rho call on it fails. -/
theorem rhoF_endlessOperand : (rhoF endlessOperand 0).1 = endlessOperand := by
  rw [rhoF, rhoLoop_eq_direct (by decide) (by decide) (Nat.mod_lt _ (by decide))]
  decide +kernel

/-- Without a limit every call of the retry loop fails as the first did. -/
theorem factorF_endlessOperand_spent (budget : Nat) : factorF 0 budget endlessOperand 0 = .error .spent :=
  factorF_endlessOperand (zeroSeedFailureRepeats _ _ _ rfl (.inr rhoF_endlessOperand))

theorem factorF_endlessOperand_retryLimit {budget : Nat} (hpos : 0 < budget) :
    factorF 1 budget endlessOperand 0 = .error (.error .retryLimit 0) := by
  obtain ⟨b, rfl⟩ : ∃ b, budget = b + 1 := ⟨budget - 1, by omega⟩
  refine factorF_endlessOperand ?_
  have hseed : (Driver.start (b + 1) endlessOperand 0).seed = 0 := rfl
  rw [rhoRetry_succ, hseed, if_neg fun h => h.2 rhoF_endlessOperand, if_pos ⟨one_ne_zero, le_add_self⟩, xorshiftF_zero]

/-- Settles O44: the first rho call from SEED 0 fails, and so does every later one; a limit of 1 ends the loop at it. -/
theorem someFactorNeverCompletes : Obligations.SomeFactorNeverCompletes :=
  ⟨factorF_endlessOperand_spent, fun _ => factorF_endlessOperand_retryLimit⟩

end Sys2Proof.Machine
end
